-- ==== Sys2Proof/Word.lean ====
section
/-! DEFINITION. The words of BTS-FRS (00_scope.md R7): bytes of the streams, 16-bit raw words, micro-operation words,
ROM addresses and 64-bit output patterns. -/

namespace Sys2Proof

/-- One byte of RX, of TX or of an 8-bit host register (R7). -/
abbrev Byte := BitVec 8

/-- A RawWord: the 16-bit pattern of a field as it stands on the wire (R7, R10). -/
abbrev RawWord := BitVec 16

/-- One microprogram word (30_encoding.md R80). -/
abbrev MicroWord := BitVec 16

/-- An index into the microprogram ROM; `UPC_BITS` = 6 (R8, R22). -/
abbrev RomAddress := BitVec 6

/-- A binary64 bit pattern, as the host reads it (42_scaler.md R140). -/
abbrev Pattern := BitVec 64

end Sys2Proof
end

