-- ==== Sys2Proof/Syntax.lean ====
section
/-! DEFINITION. The instructions: one constructor per row of spec/opcode_table.json (30_encoding.md R82, R87), and the
register names they take (10_state.md R24, R28). -/

namespace Sys2Proof

/-- The six raw registers of type i16: `x[0]` to `x[5]` (R24), the destinations of RDI16. -/
inductive I16Reg where
  | ax | ay | az | gx | gy | gz
  deriving DecidableEq, Repr

/-- The two raw registers of type u16: `x[6]` ALTC and `x[10]` IVT (R24), the destinations of RDU16. -/
inductive U16Reg where
  | altc | ivt
  deriving DecidableEq, Repr

/-- The three raw registers of type u8: `x[7]` ALTF, `x[8]` TMPC, `x[9]` TMPF (R24), the destinations of RDU8. -/
inductive U8Reg where
  | altf | tmpc | tmpf
  deriving DecidableEq, Repr

/-- Any of the eleven raw field registers, by its type (R24). -/
inductive RawReg where
  | i16 (r : I16Reg)
  | u16 (r : U16Reg)
  | u8 (r : U8Reg)
  deriving DecidableEq, Repr

/-- A component index 0, 1, 2 of SCACC and SCGYR (R81). -/
inductive Axis where
  | x | y | z
  deriving DecidableEq, Repr

/-- The ten scaled output registers `y[0]` to `y[9]` (R28). -/
inductive OutReg where
  | accx | accy | accz | gyrx | gyry | gyrz | alt | tmp | ivs | frq
  deriving DecidableEq, Repr

/-- The micro-operations of FRS-u v1 and the host command START. -/
inductive Instr where
  /-- TXB imm, 41_sequencer.md R122. -/
  | txb (imm : Byte)
  /-- RDU8 rd, 40_frame_reader.md R101. -/
  | rdu8 (rd : U8Reg)
  /-- RDU16 rd, 40_frame_reader.md R102. -/
  | rdu16 (rd : U16Reg)
  /-- RDI16 rd, 40_frame_reader.md R103. -/
  | rdi16 (rd : I16Reg)
  /-- SCACC i, 42_scaler.md R145. -/
  | scacc (i : Axis)
  /-- SCGYR i, 42_scaler.md R146. -/
  | scgyr (i : Axis)
  /-- FXALT, 42_scaler.md R147. -/
  | fxalt
  /-- FXTMP, 42_scaler.md R148. -/
  | fxtmp
  /-- IVSEC, 42_scaler.md R149. -/
  | ivsec
  /-- FREQ, 42_scaler.md R150. -/
  | freq
  /-- DONE, 41_sequencer.md R123. -/
  | done
  /-- START, the host command, 41_sequencer.md R121; no ROM word (30_encoding.md R87). -/
  | start
  deriving DecidableEq, Repr

end Sys2Proof
end

