-- ==== Sys2Proof/WellFormed.lean ====
section
/-! DEFINITION. Which instruction terms the spec gives an encoding. Register operands are legal by their types (the legal
`r` sets of 30_encoding.md R82); what is left to check is TXB's immediate. -/

namespace Sys2Proof

/-- The three trigger bytes `'A'`, `'G'`, `'B'` (30_encoding.md R70). -/
def triggerBytes : List Byte := [0x41#8, 0x47#8, 0x42#8]

/-- The operands are in the legal sets of R82: TXB sends a trigger byte, every other operand is legal by its type. -/
def Instr.wellFormed : Instr → Bool
  | .txb imm => triggerBytes.contains imm
  | .rdu8 _ => true
  | .rdu16 _ => true
  | .rdi16 _ => true
  | .scacc _ => true
  | .scgyr _ => true
  | .fxalt => true
  | .fxtmp => true
  | .ivsec => true
  | .freq => true
  | .done => true
  | .start => true

end Sys2Proof
end

