-- ==== Sys2Proof/Decode.lean ====
section
/-! DEFINITION. The decoder of micro-operation words and of the host's CTRL byte, and the encoder written from the same
tables (30_encoding.md R80 to R87). -/

namespace Sys2Proof

/-- Why a 16-bit word is illegal (30_encoding.md R84). -/
inductive DecodeError where
  /-- Opcode 0x0, 0xB, 0xC, 0xD or 0xE. -/
  | opcode
  /-- The `r` field is outside the opcode's legal set. -/
  | register
  /-- The `imm` field is outside the opcode's legal set. -/
  | immediate
  deriving DecidableEq, Repr

/-- Bits 15:12 of a micro-operation word (R80). -/
def opField (w : MicroWord) : BitVec 4 := w.extractLsb' 12 4

/-- Bits 11:8 (R80). -/
def regField (w : MicroWord) : BitVec 4 := w.extractLsb' 8 4

/-- Bits 7:0 (R80). -/
def immField (w : MicroWord) : Byte := w.extractLsb' 0 8

/-- The word with the three fields of R80. -/
def microWord (op r : BitVec 4) (imm : Byte) : MicroWord := op ++ r ++ imm

/-- The index of an i16 register (R24). -/
def I16Reg.index : I16Reg → BitVec 4
  | .ax => 0 | .ay => 1 | .az => 2 | .gx => 3 | .gy => 4 | .gz => 5

/-- The index of a u16 register (R24). -/
def U16Reg.index : U16Reg → BitVec 4
  | .altc => 6 | .ivt => 10

/-- The index of a u8 register (R24). -/
def U8Reg.index : U8Reg → BitVec 4
  | .altf => 7 | .tmpc => 8 | .tmpf => 9

/-- The index of a raw register (R24). -/
def RawReg.index : RawReg → BitVec 4
  | .i16 r => r.index
  | .u16 r => r.index
  | .u8 r => r.index

/-- The component index (R81). -/
def Axis.index : Axis → BitVec 4
  | .x => 0 | .y => 1 | .z => 2

/-- The legal `r` of RDI16: 0 to 5 (R82). -/
def I16Reg.ofIndex (r : BitVec 4) : Option I16Reg :=
  match r.toNat with
  | 0 => some .ax | 1 => some .ay | 2 => some .az | 3 => some .gx | 4 => some .gy | 5 => some .gz
  | _ => none

/-- The legal `r` of RDU16: 6 and 10 (R82). -/
def U16Reg.ofIndex (r : BitVec 4) : Option U16Reg :=
  match r.toNat with
  | 6 => some .altc | 10 => some .ivt
  | _ => none

/-- The legal `r` of RDU8: 7, 8, 9 (R82). -/
def U8Reg.ofIndex (r : BitVec 4) : Option U8Reg :=
  match r.toNat with
  | 7 => some .altf | 8 => some .tmpc | 9 => some .tmpf
  | _ => none

/-- The legal `r` of SCACC and SCGYR: 0, 1, 2 (R82). -/
def Axis.ofIndex (r : BitVec 4) : Option Axis :=
  match r.toNat with
  | 0 => some .x | 1 => some .y | 2 => some .z
  | _ => none

/-- A word whose operand is its `r` field: `imm` is 0 and `r` is in the legal set (R82). -/
def decodeReg {α : Type} (w : MicroWord) (ofIndex : BitVec 4 → Option α) (k : α → Instr) :
    Except DecodeError Instr :=
  match ofIndex (regField w) with
  | none => .error .register
  | some a => if immField w = 0 then .ok (k a) else .error .immediate

/-- A word without operands: `r` and `imm` are 0 (R82). -/
def decodePlain (w : MicroWord) (i : Instr) : Except DecodeError Instr :=
  if regField w ≠ 0 then .error .register
  else if immField w = 0 then .ok i else .error .immediate

/-- TXB: `r` is 0 and `imm` a trigger byte (R82). -/
def decodeTxb (w : MicroWord) : Except DecodeError Instr :=
  if regField w ≠ 0 then .error .register
  else if triggerBytes.contains (immField w) then .ok (.txb (immField w)) else .error .immediate

/-- The opcode map of R82; every other word is illegal (R84). Total on all 65536 words. -/
def decode (w : MicroWord) : Except DecodeError Instr :=
  match (opField w).toNat with
  | 0x1 => decodeTxb w
  | 0x2 => decodeReg w U8Reg.ofIndex .rdu8
  | 0x3 => decodeReg w U16Reg.ofIndex .rdu16
  | 0x4 => decodeReg w I16Reg.ofIndex .rdi16
  | 0x5 => decodeReg w Axis.ofIndex .scacc
  | 0x6 => decodeReg w Axis.ofIndex .scgyr
  | 0x7 => decodePlain w .fxalt
  | 0x8 => decodePlain w .fxtmp
  | 0x9 => decodePlain w .ivsec
  | 0xA => decodePlain w .freq
  | 0xF => decodePlain w .done
  | _ => .error .opcode

/-- The command in a byte the host writes to CTRL: START when bit 0 is 1, none when it is 0; bits 7:1 are ignored
(30_encoding.md R87, 10_state.md R37). -/
def decodeCtrl (v : Byte) : Option Instr :=
  if v[0] then some .start else none

/-- The two places an instruction comes from: the microprogram ROM or the host's CTRL register (R82, R87). -/
inductive Encoding where
  | rom (w : MicroWord)
  | ctrl (v : Byte)
  deriving DecidableEq, Repr

/-- The instruction an encoding stands for, `none` where it stands for none. -/
def decodeEncoding : Encoding → Option Instr
  | .rom w => (decode w).toOption
  | .ctrl v => decodeCtrl v

/-- The encoding of an instruction, from the table of R82 and from R87. -/
def encode : Instr → Encoding
  | .txb imm => .rom (microWord 0x1 0 imm)
  | .rdu8 rd => .rom (microWord 0x2 rd.index 0)
  | .rdu16 rd => .rom (microWord 0x3 rd.index 0)
  | .rdi16 rd => .rom (microWord 0x4 rd.index 0)
  | .scacc i => .rom (microWord 0x5 i.index 0)
  | .scgyr i => .rom (microWord 0x6 i.index 0)
  | .fxalt => .rom (microWord 0x7 0 0)
  | .fxtmp => .rom (microWord 0x8 0 0)
  | .ivsec => .rom (microWord 0x9 0 0)
  | .freq => .rom (microWord 0xA 0 0)
  | .done => .rom (microWord 0xF 0 0)
  | .start => .ctrl 0x01

/-- The instruction of a row of spec/opcode_table.json whose bits are `w`: rows of one byte or less are the host's CTRL
byte (START), the others a ROM word. -/
def decodeTableWord (nbits w : Nat) : Option Instr :=
  if nbits ≤ 8 then decodeCtrl (BitVec.ofNat 8 w) else (decode (BitVec.ofNat 16 w)).toOption

end Sys2Proof
end

