-- ==== Sys2Proof/Config.lean ====
section
/-! DEFINITION. What is fixed outside the block: the frame lengths of 00_scope.md R8 and the free values, which no proof
can look into. -/

namespace Sys2Proof

/-- The three answers the ByteSource can give to one receive request (20_memory.md R52). -/
inductive RxAnswer where
  /-- The next byte of the stream, now consumed. -/
  | byte (b : Byte)
  /-- No byte within the configured read timeout; nothing is consumed. -/
  | timeout
  /-- The channel is closed; nothing is consumed. -/
  | closed
  deriving DecidableEq, Repr, Inhabited

namespace Config

/-- The answer of the ByteSource to its receive request number `n` (counted from 0) where `State.rx` lists no answer for
it: a FREE VALUE, any of the three (R52, 93 U12). Log entry 2. -/
opaque rxAnswer : Nat → RxAnswer

/-- `rn(1/v)` for a pattern `v` in `IVS` that no rule of 42_scaler.md gives a reciprocal of (zero, `+INF`, a pattern that
is no element of F64, or a reciprocal outside the range R141 covers) while `IVT` is not 0: a FREE VALUE. No run from reset
reaches it. Log entry 9. -/
opaque freeReciprocal : Pattern → Pattern

/-- `ACC_LEN`, bytes of the accelerometer sub-block (R8). -/
def accLen : Nat := 6
/-- `GYR_LEN`, bytes of the gyroscope sub-block (R8). -/
def gyrLen : Nat := 6
/-- `BARO_LEN`, bytes of the barometer sub-block in both variants (R8; 90_conflicts.md C2). -/
def baroLen : Nat := 5
/-- `IVT_LEN`, bytes of the interval word, variant 1 only (R8). -/
def ivtLen : Nat := 2
/-- `FRAME_LEN_V1`, bytes received per combined-variant cycle (R8; 90_conflicts.md C1). -/
def frameLenV1 : Nat := 19
/-- `FRAME_LEN_V2`, bytes received per per-block-variant cycle (R8). -/
def frameLenV2 : Nat := 17

end Config

end Sys2Proof
end

