-- ==== Sys2Proof/Machine/State.lean ====
section
/-! DEFINITION. The state of the block (10_state.md R20), of the two streams and the host it is connected to, the reasons
a step stops, and the state after reset (R45). -/

namespace Sys2Proof.Machine

/-- `ST` (R21). -/
inductive DecoderState where
  /-- No cycle in progress; code 0. -/
  | idle
  /-- A cycle in progress, from the acceptance of START to DONE or Abort; code 1. -/
  | awaitingBytes
  deriving DecidableEq, Repr

/-- The protocol variants, the values of `VAR` and of `CFG.VARIANT` (R23, R36). -/
inductive Variant where
  /-- Variant 1, combined-request; bit value 0. -/
  | combined
  /-- Variant 2, per-block-request; bit value 1. -/
  | perBlock
  deriving DecidableEq, Repr

/-- `KIND`, the outcome of the most recent cycle (R32). -/
inductive Kind where
  | none | ok | failed
  deriving DecidableEq, Repr

/-- `STAGE`, the sub-block a failed read belongs to (R33). -/
inductive Stage where
  | accel | gyro | baro | interval
  deriving DecidableEq, Repr

/-- `CAUSE` of a failure (R33); code 0, no cause, is `Option.none`. -/
inductive Cause where
  | ioTimeout | streamClosed
  deriving DecidableEq, Repr

/-- A register with its valid bit (R26, R29). -/
structure Reg (w : Nat) where
  bits : BitVec w
  valid : Bool
  deriving DecidableEq, Repr

/-- The eleven raw field registers `x[0]` to `x[10]` (R24). -/
structure RawFile where
  ax : Reg 16
  ay : Reg 16
  az : Reg 16
  gx : Reg 16
  gy : Reg 16
  gz : Reg 16
  altc : Reg 16
  altf : Reg 8
  tmpc : Reg 8
  tmpf : Reg 8
  ivt : Reg 16
  deriving DecidableEq, Repr

/-- The ten scaled output registers `y[0]` to `y[9]`, as binary64 patterns (R28, 42_scaler.md R140). -/
structure OutFile where
  accx : Reg 64
  accy : Reg 64
  accz : Reg 64
  gyrx : Reg 64
  gyry : Reg 64
  gyrz : Reg 64
  alt : Reg 64
  tmp : Reg 64
  ivs : Reg 64
  frq : Reg 64
  deriving DecidableEq, Repr

/-- A result event (41_sequencer.md R128). -/
inductive Result where
  | ok
  | failed (stage : Stage) (cause : Cause)
  deriving DecidableEq, Repr

/-- One event of the block's observable behaviour (R128): a byte handed to TX, a receive request with the answer it got,
a result event. -/
inductive Event where
  | tx (b : Byte)
  | rx (a : RxAnswer)
  | result (r : Result)
  deriving DecidableEq, Repr

/-- What the outside does before the next step: which agent moves (00_scope.md R4). The list of them in State says how
the host's accesses interleave with the sequencer's steps. Log entry 3. -/
inductive Turn where
  /-- The host does nothing; the sequencer moves if a cycle is in progress. -/
  | sequencer
  /-- The host writes a byte to host register `reg`. -/
  | write (reg : Nat) (v : Byte)
  /-- The host reads host register `reg`. -/
  | read (reg : Nat)
  /-- Reset is applied (70_reset_and_hazards.md R200). -/
  | reset
  deriving DecidableEq, Repr

/-- The state. The fields from `st` to `cfgWritten` are the block's (R20); the rest is the ByteSource, the host and the
trace of what the block did at its interfaces (20_memory.md R50, 41_sequencer.md R128). -/
structure State where
  /-- `ST` (R21). -/
  st : DecoderState
  /-- `UPC`, the microprogram counter (R22). -/
  upc : RomAddress
  /-- `VAR`, the variant of the cycle in progress (R23). -/
  var : Variant
  /-- `x[0]` to `x[10]` with their valid bits (R24, R26). -/
  x : RawFile
  /-- `WH`, the word-assembly register (R27). -/
  wh : Byte
  /-- `WHV`, its valid bit (R27). -/
  whv : Bool
  /-- `y[0]` to `y[9]` with their valid bits (R28, R29). -/
  y : OutFile
  /-- `KIND` (R32). -/
  kind : Kind
  /-- `STAGE` (R33). -/
  stage : Stage
  /-- `CAUSE` (R33). -/
  cause : Option Cause
  /-- `DZ` (R34). -/
  dz : Bool
  /-- `CFG.VARIANT` (R36); the other seven bits of `CFG` hold no state. -/
  cfgVariant : Variant
  /-- `CFGV` (R36). -/
  cfgWritten : Bool
  /-- The answers the ByteSource will give to the next receive requests, the next one first (20_memory.md R51, R52). -/
  rx : List RxAnswer
  /-- The number of receive requests issued: the model's own counter, index of the free answers. -/
  rxCount : Nat
  /-- What the block did at its interfaces, oldest first (41_sequencer.md R128). -/
  events : List Event
  /-- What the host's reads returned: register number and value, oldest first. -/
  readData : List (Nat × BitVec 64)
  /-- The turns to come, the next one first; when none is listed the sequencer moves. -/
  turns : List Turn
  deriving DecidableEq, Repr

/-- Why the machine stops on a fault: a situation the spec calls a model fault (00_scope.md R13). -/
inductive Fault where
  /-- A scaler micro-operation reads a raw register whose valid bit is 0 (R26, 93 U4). Raised by SCACC, SCGYR, FXALT,
  FXTMP, IVSEC, FREQ. Safe: the spec gives such a read no meaning. -/
  | invalidRaw (r : RawReg)
  /-- FREQ reads `IVS` while its valid bit is 0 (R29, 93 U4). Safe: the spec gives such a read no meaning. -/
  | invalidOut (r : OutReg)
  deriving DecidableEq, Repr

/-- Why a step is refused: the spec gives no step (00_scope.md R13). All are safe: the model stops where the hardware has
no defined behaviour. -/
inductive Refusal where
  /-- An instruction that has no meaning yet; raised by no arm of exec. Safe. -/
  | notModelled (mnemonic : String)
  /-- An illegal micro-operation word (30_encoding.md R84, 93 U5), raised by the fetch, and by TXB for an immediate that
  is no trigger byte. Safe. -/
  | illegalWord (e : DecodeError)
  /-- A micro-operation presented while `ST` is Idle, where the sequencer has no step (41_sequencer.md R124); raised by the
  meanings of the eleven micro-operations, never by step. Safe. -/
  | sequencerIdle
  /-- START while a cycle is in progress (41_sequencer.md R120, 93 U2). Raised by START. Safe. -/
  | startWhileBusy
  /-- START before the host has written CFG since reset (41_sequencer.md R120, 93 U3). Raised by START. Safe. -/
  | startBeforeConfig
  /-- The host reads `CFG` before it has written it (R45; 95_test_vectors.md 2.4). Safe. -/
  | configUnwritten
  /-- The host reads an output register while `KIND` is not Ok or its valid bit is 0 (R29, 93 U4). Safe. -/
  | outputUnreadable (r : OutReg)
  deriving DecidableEq, Repr

/-- The contents a register of width `w` holds after reset: the spec gives none, so DESIGN CHOICE 0, with valid bit 0
(R45). Log entry 1. -/
def Reg.reset (w : Nat) : Reg w := ⟨0, false⟩

/-- The raw registers after reset (R45). -/
def RawFile.reset : RawFile :=
  ⟨.reset 16, .reset 16, .reset 16, .reset 16, .reset 16, .reset 16, .reset 16, .reset 8, .reset 8, .reset 8, .reset 16⟩

/-- The output registers after reset (R45). -/
def OutFile.reset : OutFile :=
  ⟨.reset 64, .reset 64, .reset 64, .reset 64, .reset 64, .reset 64, .reset 64, .reset 64, .reset 64, .reset 64⟩

/-- The machine right after reset (R45, 70_reset_and_hazards.md R200). `upc`, `var`, `wh`, `cfgVariant` and the register
contents are unspecified there and hold the values log entry 1 names; nothing has happened at the interfaces. -/
def State.reset : State where
  st := .idle
  upc := 0
  var := .combined
  x := .reset
  wh := 0
  whv := false
  y := .reset
  kind := .none
  stage := .accel
  cause := none
  dz := false
  cfgVariant := .combined
  cfgWritten := false
  rx := []
  rxCount := 0
  events := []
  readData := []
  turns := []

end Sys2Proof.Machine
end

