-- ==== Sys2Proof/Machine/Rom.lean ====
section
/-! DEFINITION. The microprogram ROM, a constant (30_encoding.md R88 to R92). -/

namespace Sys2Proof.Machine

/-- Variant 1, addresses 0 to 22 (R90). -/
def romCombined : List MicroWord :=
  [0x1041, 0x4000, 0x4100, 0x4200, 0x4300, 0x4400, 0x4500, 0x3600, 0x2700, 0x2800, 0x2900, 0x3A00]
  ++ [0x5000, 0x5100, 0x5200, 0x6000, 0x6100, 0x6200, 0x7000, 0x8000, 0x9000, 0xA000, 0xF000]

/-- Variant 2, addresses 32 to 53 (R91). -/
def romPerBlock : List MicroWord :=
  [0x1041, 0x4000, 0x4100, 0x4200, 0x1047, 0x4300, 0x4400, 0x4500, 0x1042, 0x3600, 0x2700, 0x2800, 0x2900]
  ++ [0x5000, 0x5100, 0x5200, 0x6000, 0x6100, 0x6200, 0x7000, 0x8000, 0xF000]

/-- The 64 words; addresses 23 to 31 and 54 to 63 hold the illegal word 0x0000 (R92). -/
def romWords : List MicroWord :=
  romCombined ++ List.replicate 9 0 ++ romPerBlock ++ List.replicate 10 0

/-- The pseudo-instructions (R94). -/
inductive Pseudo where
  | readU8 (rd : U8Reg)
  | readU16 (rd : U16Reg)
  | readI16 (rd : I16Reg)
  | decodeOnce
  | rdAcc | rdGyr | rdBaro | scVec
  deriving DecidableEq, Repr

/-- What a pseudo-instruction stands for (R94). -/
def expandPseudo : Pseudo → List Instr
  | .readU8 rd => [.rdu8 rd]
  | .readU16 rd => [.rdu16 rd]
  | .readI16 rd => [.rdi16 rd]
  | .decodeOnce => [.start]
  | .rdAcc => [.rdi16 .ax, .rdi16 .ay, .rdi16 .az]
  | .rdGyr => [.rdi16 .gx, .rdi16 .gy, .rdi16 .gz]
  | .rdBaro => [.rdu16 .altc, .rdu8 .altf, .rdu8 .tmpc, .rdu8 .tmpf]
  | .scVec => [.scacc .x, .scacc .y, .scacc .z, .scgyr .x, .scgyr .y, .scgyr .z]

/-- The microprogram of a variant, written with the pseudo-instructions (R94). -/
def microprogram : Variant → List Instr
  | .combined =>
    [.txb 0x41] ++ expandPseudo .rdAcc ++ expandPseudo .rdGyr ++ expandPseudo .rdBaro ++ expandPseudo (.readU16 .ivt)
      ++ expandPseudo .scVec ++ [.fxalt, .fxtmp, .ivsec, .freq, .done]
  | .perBlock =>
    [.txb 0x41] ++ expandPseudo .rdAcc ++ [.txb 0x47] ++ expandPseudo .rdGyr ++ [.txb 0x42] ++ expandPseudo .rdBaro
      ++ expandPseudo .scVec ++ [.fxalt, .fxtmp, .done]

/-- `Rom(a)` (R88). -/
def rom (a : RomAddress) : MicroWord := romWords.getD a.toNat 0

/-- An unused ROM address (R92). -/
def unusedAddress : RomAddress := 23

/-- The first address of a list of words, counted from `a`, that holds `w`. -/
def findWord (w : MicroWord) : List MicroWord → Nat → Option Nat
  | [], _ => none
  | v :: vs, a => if v = w then some a else findWord w vs (a + 1)

/-- A ROM address that holds `w`; every legal word has one. For a word the ROM does not hold, an unused address, which
holds an illegal word. -/
def romAddressOf (w : MicroWord) : RomAddress :=
  match findWord w romWords 0 with
  | some a => BitVec.ofNat 6 a
  | none => unusedAddress

/-- The ROM address at which the microprogram of a variant begins (R89). -/
def entryAddress : Variant → RomAddress
  | .combined => 0
  | .perBlock => 32

end Sys2Proof.Machine
end

