-- ==== Sys2Proof/Machine/Ops.lean ====
section
/-! DEFINITION. The named operations on the state: register access with its valid bits, the two stream primitives, the
start and the two ends of a cycle. -/

namespace Sys2Proof.Machine

/-! ## Registers and their valid bits (10_state.md R24 to R29) -/

/-- A register just written: it holds a value (R26, R29). -/
def Reg.written {w : Nat} (v : BitVec w) : Reg w := ⟨v, true⟩

/-- A register whose valid bit has been cleared; it holds no value (R26). -/
def Reg.invalidate {w : Nat} (r : Reg w) : Reg w := { r with valid := false }

def RawFile.getI16 (f : RawFile) : I16Reg → Reg 16
  | .ax => f.ax | .ay => f.ay | .az => f.az | .gx => f.gx | .gy => f.gy | .gz => f.gz

def RawFile.getU16 (f : RawFile) : U16Reg → Reg 16
  | .altc => f.altc | .ivt => f.ivt

def RawFile.getU8 (f : RawFile) : U8Reg → Reg 8
  | .altf => f.altf | .tmpc => f.tmpc | .tmpf => f.tmpf

def RawFile.setI16 (f : RawFile) (r : I16Reg) (v : Reg 16) : RawFile :=
  match r with
  | .ax => { f with ax := v } | .ay => { f with ay := v } | .az => { f with az := v }
  | .gx => { f with gx := v } | .gy => { f with gy := v } | .gz => { f with gz := v }

def RawFile.setU16 (f : RawFile) (r : U16Reg) (v : Reg 16) : RawFile :=
  match r with
  | .altc => { f with altc := v } | .ivt => { f with ivt := v }

def RawFile.setU8 (f : RawFile) (r : U8Reg) (v : Reg 8) : RawFile :=
  match r with
  | .altf => { f with altf := v } | .tmpc => { f with tmpc := v } | .tmpf => { f with tmpf := v }

/-- The valid bit of any raw register (R26). -/
def RawFile.valid (f : RawFile) : RawReg → Bool
  | .i16 r => (f.getI16 r).valid
  | .u16 r => (f.getU16 r).valid
  | .u8 r => (f.getU8 r).valid

/-- The integer any raw register holds, as its readers receive it: an i16 register is folded, the others are unsigned
(R25). -/
def RawFile.value (f : RawFile) : RawReg → Int
  | .i16 r => (f.getI16 r).bits.toInt
  | .u16 r => (f.getU16 r).bits.toNat
  | .u8 r => (f.getU8 r).bits.toNat

/-- All eleven valid bits cleared (R26). -/
def RawFile.invalidate (f : RawFile) : RawFile :=
  ⟨f.ax.invalidate, f.ay.invalidate, f.az.invalidate, f.gx.invalidate, f.gy.invalidate, f.gz.invalidate,
    f.altc.invalidate, f.altf.invalidate, f.tmpc.invalidate, f.tmpf.invalidate, f.ivt.invalidate⟩

def OutFile.get (f : OutFile) : OutReg → Reg 64
  | .accx => f.accx | .accy => f.accy | .accz => f.accz | .gyrx => f.gyrx | .gyry => f.gyry | .gyrz => f.gyrz
  | .alt => f.alt | .tmp => f.tmp | .ivs => f.ivs | .frq => f.frq

def OutFile.set (f : OutFile) (r : OutReg) (v : Reg 64) : OutFile :=
  match r with
  | .accx => { f with accx := v } | .accy => { f with accy := v } | .accz => { f with accz := v }
  | .gyrx => { f with gyrx := v } | .gyry => { f with gyry := v } | .gyrz => { f with gyrz := v }
  | .alt => { f with alt := v } | .tmp => { f with tmp := v } | .ivs => { f with ivs := v }
  | .frq => { f with frq := v }

/-- All ten valid bits cleared (R29). -/
def OutFile.invalidate (f : OutFile) : OutFile :=
  ⟨f.accx.invalidate, f.accy.invalidate, f.accz.invalidate, f.gyrx.invalidate, f.gyry.invalidate, f.gyrz.invalidate,
    f.alt.invalidate, f.tmp.invalidate, f.ivs.invalidate, f.frq.invalidate⟩

/-- `x[r] <- v` for an i16 register: the received pattern is stored and the valid bit set (R25, R26). -/
def State.writeI16 (s : State) (r : I16Reg) (v : RawWord) : State := { s with x := s.x.setI16 r (.written v) }

/-- `x[r] <- v` for a u16 register (R26). -/
def State.writeU16 (s : State) (r : U16Reg) (v : RawWord) : State := { s with x := s.x.setU16 r (.written v) }

/-- `x[r] <- v` for a u8 register (R26). -/
def State.writeU8 (s : State) (r : U8Reg) (v : Byte) : State := { s with x := s.x.setU8 r (.written v) }

/-- `y[r] <- v` (R29). -/
def State.writeOut (s : State) (r : OutReg) (v : Pattern) : State := { s with y := s.y.set r (.written v) }

/-- `upc <- upc + 1` (41_sequencer.md R124). -/
def State.advance (s : State) : State := { s with upc := s.upc + 1 }

/-- `DZ <- 1` (R34). -/
def State.raiseDz (s : State) : State := { s with dz := true }

/-! ## Reading a register: a valid bit of 0 is a fault (00_scope.md R13) -/

/-- Run `k` on the integer an i16 register holds; every reader receives it folded (R25, 40_frame_reader.md R107). -/
def State.withI16 (s : State) (r : I16Reg) (k : Int → Host.Outcome State Fault Refusal) :
    Host.Outcome State Fault Refusal :=
  if (s.x.getI16 r).valid then k (s.x.getI16 r).bits.toInt else .fault (.invalidRaw (.i16 r))

/-- Run `k` on the integer a u16 register holds, never folded (R25). -/
def State.withU16 (s : State) (r : U16Reg) (k : Nat → Host.Outcome State Fault Refusal) :
    Host.Outcome State Fault Refusal :=
  if (s.x.getU16 r).valid then k (s.x.getU16 r).bits.toNat else .fault (.invalidRaw (.u16 r))

/-- Run `k` on the integer a u8 register holds, never folded (R25). -/
def State.withU8 (s : State) (r : U8Reg) (k : Nat → Host.Outcome State Fault Refusal) :
    Host.Outcome State Fault Refusal :=
  if (s.x.getU8 r).valid then k (s.x.getU8 r).bits.toNat else .fault (.invalidRaw (.u8 r))

/-- Run `k` on the pattern an output register holds (R29). -/
def State.withOut (s : State) (r : OutReg) (k : Pattern → Host.Outcome State Fault Refusal) :
    Host.Outcome State Fault Refusal :=
  if (s.y.get r).valid then k (s.y.get r).bits else .fault (.invalidOut r)

/-- A micro-operation executes only while `ST` is AwaitingBytes; in Idle the sequencer has no step (41_sequencer.md
R124). -/
def State.inCycle (s : State) (k : Host.Outcome State Fault Refusal) : Host.Outcome State Fault Refusal :=
  match s.st with
  | .awaitingBytes => k
  | .idle => .refused .sequencerIdle

/-! ## The streams (20_memory.md) -/

/-- One more event of the observable behaviour (41_sequencer.md R128). -/
def State.emit (s : State) (e : Event) : State := { s with events := s.events ++ [e] }

/-- `TxWrite(b)`: appends one byte to TX and completes (R56). -/
def State.txWrite (s : State) (b : Byte) : State := s.emit (.tx b)

/-- The answer the next receive request gets: the first one listed, or a free value where none is (R52). -/
def State.nextAnswer (s : State) : RxAnswer :=
  match s.rx with
  | a :: _ => a
  | [] => Config.rxAnswer s.rxCount

/-- The state after one receive request has been answered: the answer is used up and the request is on record (R51). -/
def State.requestAnswered (s : State) : State :=
  { s with rx := s.rx.tail, rxCount := s.rxCount + 1, events := s.events ++ [.rx s.nextAnswer] }

/-- `WH <- b`, `WHV <- 1` (10_state.md R27). -/
def State.latchHigh (s : State) (b : Byte) : State := { s with wh := b, whv := true }

/-- `WHV <- 0` (10_state.md R27). -/
def State.releaseHigh (s : State) : State := { s with whv := false }

/-! ## Start and end of a cycle (41_sequencer.md) -/

/-- START's action (R121). -/
def State.beginCycle (s : State) : State :=
  { s with
    st := .awaitingBytes
    upc := entryAddress s.cfgVariant
    var := s.cfgVariant
    x := s.x.invalidate
    whv := false
    y := s.y.invalidate
    kind := .none
    stage := .accel
    cause := none
    dz := false }

/-- `Abort(stage, cause)`, the block's only exception: no value of the cycle stays readable, `ST` returns to Idle, the
failure is recorded and reported (R126, 60_exceptions.md R179). There is no return from it (60_exceptions.md R180). -/
def State.abort (s : State) (stage : Stage) (cause : Cause) : State :=
  { s with
    st := .idle
    x := s.x.invalidate
    whv := false
    y := s.y.invalidate
    kind := .failed
    stage := stage
    cause := some cause
    events := s.events ++ [.result (.failed stage cause)] }

/-- DONE's action (R123). -/
def State.finish (s : State) : State :=
  { s with st := .idle, kind := .ok, events := s.events ++ [.result .ok] }

/-- The cause an answer aborts a cycle with; a byte aborts none (40_frame_reader.md R100). -/
def answerCause : RxAnswer → Option Cause
  | .byte _ => none
  | .timeout => some .ioTimeout
  | .closed => some .streamClosed

/-- `RxRead()` inside a FrameReader micro-operation: a byte goes on with `k`, any other answer aborts the cycle with its
cause (40_frame_reader.md R100). -/
def State.readByte (s : State) (stage : Stage) (k : Byte → State → State) : State :=
  match s.nextAnswer with
  | .byte b => k b s.requestAnswered
  | .timeout => s.requestAnswered.abort stage .ioTimeout
  | .closed => s.requestAnswered.abort stage .streamClosed

/-- Reset applied from outside: every piece of the block's state takes its reset value; the streams, the record of what
happened and the host are not touched (70_reset_and_hazards.md R200, R201). -/
def State.resetBlock (s : State) : State :=
  { State.reset with
    rx := s.rx
    rxCount := s.rxCount
    events := s.events
    readData := s.readData
    turns := s.turns }

/-- The state once the next turn has been taken off the list. -/
def State.turnTaken (s : State) : State := { s with turns := s.turns.tail }

end Sys2Proof.Machine
end

