-- ==== Sys2Proof/Machine/Operands.lean ====
section
/-! DEFINITION. The operand forms: the big-endian word of two received bytes, the stage a register belongs to, the
registers a component index names. -/

namespace Sys2Proof.Machine

/-- `(b0 << 8) | b1`: the byte received first is the more significant (20_memory.md R57). -/
def bigEndian (b0 b1 : Byte) : RawWord := b0 ++ b1

/-- The stage column of 10_state.md R24 for RDI16's registers. -/
def i16Stage : I16Reg → Stage
  | .ax => .accel | .ay => .accel | .az => .accel | .gx => .gyro | .gy => .gyro | .gz => .gyro

/-- The stage column of 10_state.md R24 for RDU16's registers. -/
def u16Stage : U16Reg → Stage
  | .altc => .baro | .ivt => .interval

/-- The stage column of 10_state.md R24 for RDU8's registers. -/
def u8Stage : U8Reg → Stage
  | .altf => .baro | .tmpc => .baro | .tmpf => .baro

/-- SCACC's source `x[i]` (42_scaler.md R145). -/
def accSource : Axis → I16Reg
  | .x => .ax | .y => .ay | .z => .az

/-- SCACC's destination `y[i]` (42_scaler.md R145). -/
def accDest : Axis → OutReg
  | .x => .accx | .y => .accy | .z => .accz

/-- SCGYR's source `x[3+i]` (42_scaler.md R146). -/
def gyrSource : Axis → I16Reg
  | .x => .gx | .y => .gy | .z => .gz

/-- SCGYR's destination `y[3+i]` (42_scaler.md R146). -/
def gyrDest : Axis → OutReg
  | .x => .gyrx | .y => .gyry | .z => .gyrz

/-- Two `RxRead()`s and the 16-bit field they make, assembled through `WH` (40_frame_reader.md R102, R103), as one step
(R106). The second request is issued only if the first was answered by a byte. -/
def State.readWord (s : State) (stage : Stage) (k : RawWord → State → State) : State :=
  s.readByte stage fun b0 t =>
    (t.latchHigh b0).readByte stage fun b1 u => k (bigEndian u.wh b1) u.releaseHigh

end Sys2Proof.Machine
end

