-- ==== Sys2Proof/Machine/FrameReader.lean ====
section
/-! DEFINITION. The FrameReader micro-operations RDU8, RDU16, RDI16 (40_frame_reader.md). -/

namespace Sys2Proof.Machine

/-- RDU8 (R101): one byte, stored unmasked and unsigned. -/
def execRdu8 (rd : U8Reg) (s : State) : Host.Outcome State Fault Refusal :=
  s.inCycle (.next (s.readByte (u8Stage rd) fun b t => (t.writeU8 rd b).advance))

/-- RDU16 (R102): two bytes, big-endian, never folded. -/
def execRdu16 (rd : U16Reg) (s : State) : Host.Outcome State Fault Refusal :=
  s.inCycle (.next (s.readWord (u16Stage rd) fun w t => (t.writeU16 rd w).advance))

/-- RDI16 (R103): two bytes, big-endian; the pattern is stored and every reader folds it (R107). -/
def execRdi16 (rd : I16Reg) (s : State) : Host.Outcome State Fault Refusal :=
  s.inCycle (.next (s.readWord (i16Stage rd) fun w t => (t.writeI16 rd w).advance))

end Sys2Proof.Machine
end

