-- ==== Sys2Proof/Machine/F64.lean ====
section
/-! DEFINITION. The number domain of the scaled outputs: binary64 patterns, rounding to nearest even as exact integer
arithmetic, and the same two as the spec writes them over rationals (42_scaler.md R140, R141). -/

namespace Sys2Proof.Machine

namespace F64

/-! ## The datapath: integers only -/

/-- The pattern of `+INF` (R140). -/
def posInf : Pattern := 0x7FF0000000000000

/-- The pattern of `(-1)^neg * m * 2^(E-52)` for `2^52 <= m <= 2^53`: biased exponent `E + 1023` and fraction `m - 2^52`;
at `m = 2^53` the addition carries into the exponent (R140). -/
def pack (neg : Bool) (E : Int) (m : Nat) : Pattern :=
  BitVec.ofNat 64 ((if neg then 2 ^ 63 else 0) + (E + 1022).toNat * 2 ^ 52 + m)

/-- The integer `E` with `2^E <= p/d < 2^(E+1)`, for `p` and `d` not 0 (R141). -/
def ilog2 (p d : Nat) : Int :=
  let k : Int := (Nat.log2 p : Int) - (Nat.log2 d : Int)
  if d * 2 ^ k.toNat ≤ p * 2 ^ (-k).toNat then k else k - 1

/-- `n/d` rounded to the nearest integer, ties to the even one (R141: `m'` from `n`). -/
def roundDiv (n d : Nat) : Nat :=
  let m := n / d
  let r := n % d
  if d < 2 * r ∨ (2 * r = d ∧ m % 2 = 1) then m + 1 else m

/-- The pattern of `rn` of the rational `(-1)^neg * p/d`, `d` not 0 (R141). -/
def roundQuot (neg : Bool) (p d : Nat) : Pattern :=
  if p = 0 then 0
  else
    let E := ilog2 p d
    pack neg E (roundDiv (p * 2 ^ (52 - E).toNat) (d * 2 ^ (E - 52).toNat))

/-- Bit 63 of a pattern (R140). -/
def signBit (v : Pattern) : Bool := v[63]

/-- Bits 62:52 of a pattern (R140). -/
def expField (v : Pattern) : Nat := (v.extractLsb' 52 11).toNat

/-- Bits 51:0 of a pattern (R140). -/
def fracField (v : Pattern) : Nat := (v.extractLsb' 0 52).toNat

/-- `rn(1/v)` for a normal `v` whose reciprocal is inside the range R141 covers, so for `|v|` up to `2^1022`, `none` for
every other pattern. The significand of `v` is `2^52 + f` and its unit `2^(e-1075)`. -/
def reciprocal (v : Pattern) : Option Pattern :=
  let e := expField v
  let m := 2 ^ 52 + fracField v
  if 1 ≤ e ∧ (e ≤ 2044 ∨ (e = 2045 ∧ fracField v = 0)) then some (roundQuot (signBit v) (2 ^ (1075 - e)) (m * 2 ^ (e - 1075))) else none

/-! ## The same over rationals, as the rules are written; the claims compare the datapath with these -/

/-- The rational a pattern stands for, `none` for `+INF` and for the patterns that are no element of F64 (R140). -/
def value (v : Pattern) : Option ℚ :=
  if v = 0 then some 0
  else if 1 ≤ expField v ∧ expField v ≤ 2046 then
    some ((if signBit v then -1 else 1) * (2 : ℚ) ^ ((expField v : ℤ) - 1023) * (1 + (fracField v : ℚ) / 2 ^ 52))
  else none

/-- The pattern is an element of F64: a finite one or `+INF` (R140). -/
def isElement (v : Pattern) : Bool :=
  v == 0 || v == posInf || (1 ≤ expField v && expField v ≤ 2046)

/-- `rn`, to the nearest, ties to even (R141). -/
def rn (q : ℚ) : ℚ :=
  if q = 0 then 0
  else
    let E := Int.log 2 |q|
    let u := (2 : ℚ) ^ (E - 52)
    let n := |q| / u
    let m := ⌊n⌋
    let t := n - m
    let m' := if t > 1 / 2 ∨ (t = 1 / 2 ∧ m % 2 = 1) then m + 1 else m
    (if q < 0 then -1 else 1) * m' * u

end F64

end Sys2Proof.Machine
end

