-- ==== Sys2Proof/Machine/Flags.lean ====
section
/-! DEFINITION. The divide-by-zero flag and the STATUS byte with its codes (10_state.md R32 to R34, R38). -/

namespace Sys2Proof.Machine

/-- `DZ` after FREQ read `t` ticks: set when they are 0, else untouched (R34, 42_scaler.md R150). -/
def State.flagTicks (s : State) (t : Nat) : State := if t = 0 then s.raiseDz else s

/-- The code of `BUSY` (R38). -/
def DecoderState.code : DecoderState → BitVec 1
  | .idle => 0 | .awaitingBytes => 1

/-- The code of `KIND` (R32). -/
def Kind.code : Kind → BitVec 2
  | .none => 0 | .ok => 1 | .failed => 2

/-- The code of `STAGE` (R33). -/
def Stage.code : Stage → BitVec 2
  | .accel => 0 | .gyro => 1 | .baro => 2 | .interval => 3

/-- The code of `CAUSE` (R33, 60_exceptions.md R172). -/
def Cause.code : Cause → BitVec 2
  | .ioTimeout => 1 | .streamClosed => 2

/-- `CAUSE` with its code 0 for none (R33). -/
def causeCode : Option Cause → BitVec 2
  | none => 0
  | some c => c.code

/-- The VARIANT bit (R36). -/
def Variant.code : Variant → BitVec 1
  | .combined => 0 | .perBlock => 1

/-- The variant a VARIANT bit selects (R36). -/
def Variant.ofBit (b : Bool) : Variant := if b then .perBlock else .combined

/-- `KIND` as STATUS shows it: 0 while BUSY (R38). -/
def State.kindField (s : State) : BitVec 2 :=
  match s.st with
  | .awaitingBytes => 0
  | .idle => s.kind.code

/-- `STAGE` as STATUS shows it: 0 while BUSY and while `KIND` is not Failed (R33, R38). -/
def State.stageField (s : State) : BitVec 2 :=
  match s.st, s.kind with
  | .idle, .failed => s.stage.code
  | _, _ => 0

/-- `CAUSE` as STATUS shows it: 0 while BUSY and while `KIND` is not Failed (R33, R38). -/
def State.causeField (s : State) : BitVec 2 :=
  match s.st, s.kind with
  | .idle, .failed => causeCode s.cause
  | _, _ => 0

/-- `STATUS`: DZ bit 7, CAUSE 6:5, STAGE 4:3, KIND 2:1, BUSY bit 0 (R38). -/
def State.status (s : State) : Byte :=
  BitVec.ofBool s.dz ++ s.causeField ++ s.stageField ++ s.kindField ++ s.st.code

/-- `CFG` as the host reads it: VARIANT in bit 0, bits 7:1 read as 0 (R36). -/
def State.config (s : State) : Byte := s.cfgVariant.code.setWidth 8

/-- A host write to `CFG`: bit 0 is taken, bits 7:1 are ignored, `CFGV` is set; `VAR` keeps its value (R23, R36). -/
def State.writeConfig (s : State) (v : Byte) : State :=
  { s with cfgVariant := .ofBit v[0], cfgWritten := true }

end Sys2Proof.Machine
end

