-- ==== Sys2Proof/Machine/Scaler.lean ====
section
/-! DEFINITION. The scaler micro-operations SCACC, SCGYR, FXALT, FXTMP, IVSEC, FREQ (42_scaler.md). -/

namespace Sys2Proof.Machine

/-- `M_ACC`: `C_ACC` is `M_ACC * 2^-59` (R142). -/
def accSignificand : Nat := 5522539043063071

/-- Numerator of `C_GYR` = 125/16384 (R143). -/
def gyrNumerator : Nat := 125

/-- Denominator of `C_GYR` (R143). -/
def gyrDenominator : Nat := 16384

/-- Ticks of the interval word per second (R149). -/
def ticksPerSecond : Nat := 10000000

/-- The pattern of `rn` of a signed integer times `p/d`, `d` not 0. -/
def scaleSigned (s : Int) (p d : Nat) : Pattern := F64.roundQuot (s < 0) (s.natAbs * p) d

/-- The pattern of `c + f/16`: an addition with carry into the coarse part, the fraction byte is not masked (R147,
R160). -/
def fixedPoint (c f : Nat) : Pattern := F64.roundQuot false (16 * c + f) 16

/-- The pattern of `rn(t / 10^7)` (R149). -/
def intervalSeconds (t : Nat) : Pattern := F64.roundQuot false t ticksPerSecond

/-- What FREQ writes for `t` not 0 when `IVS` holds the pattern `v`: `rn(1/v)` (R150); a free value for a pattern whose
reciprocal no rule gives. -/
def reciprocalOf (v : Pattern) : Pattern := (F64.reciprocal v).getD (Config.freeReciprocal v)

/-- SCACC (R145): `y[i] <- rn(x[i] * C_ACC)`. -/
def execScacc (i : Axis) (s : State) : Host.Outcome State Fault Refusal :=
  s.inCycle (s.withI16 (accSource i) fun a =>
    .next (s.writeOut (accDest i) (scaleSigned a accSignificand (2 ^ 59))).advance)

/-- SCGYR (R146): `y[3+i] <- x[3+i] * 125/16384`, exact. -/
def execScgyr (i : Axis) (s : State) : Host.Outcome State Fault Refusal :=
  s.inCycle (s.withI16 (gyrSource i) fun a =>
    .next (s.writeOut (gyrDest i) (scaleSigned a gyrNumerator gyrDenominator)).advance)

/-- FXALT (R147): `y[6] <- x[6] + x[7]/16`, exact. -/
def execFxalt (s : State) : Host.Outcome State Fault Refusal :=
  s.inCycle (s.withU16 .altc fun c => s.withU8 .altf fun f => .next (s.writeOut .alt (fixedPoint c f)).advance)

/-- FXTMP (R148): `y[7] <- x[8] + x[9]/16`, exact. -/
def execFxtmp (s : State) : Host.Outcome State Fault Refusal :=
  s.inCycle (s.withU8 .tmpc fun c => s.withU8 .tmpf fun f => .next (s.writeOut .tmp (fixedPoint c f)).advance)

/-- IVSEC (R149): `y[8] <- rn(x[10] / 10^7)`. -/
def execIvsec (s : State) : Host.Outcome State Fault Refusal :=
  s.inCycle (s.withU16 .ivt fun t => .next (s.writeOut .ivs (intervalSeconds t)).advance)

/-- FREQ (R150): `+INF` and `DZ` when the ticks are 0, else `y[9] <- rn(1/y[8])`. -/
def execFreq (s : State) : Host.Outcome State Fault Refusal :=
  s.inCycle (s.withU16 .ivt fun t =>
    if t = 0 then .next ((s.writeOut .frq F64.posInf).flagTicks t).advance
    else s.withOut .ivs fun v => .next ((s.writeOut .frq (reciprocalOf v)).flagTicks t).advance)

end Sys2Proof.Machine
end

