-- ==== Sys2Proof/Machine/Sequencer.lean ====
section
/-! DEFINITION. The sequencer's TXB and DONE and the host command START (41_sequencer.md). -/

namespace Sys2Proof.Machine

/-- TXB (R122): hand one trigger byte to TX. An immediate that is no trigger byte is an illegal word
(30_encoding.md R84). -/
def execTxb (imm : Byte) (s : State) : Host.Outcome State Fault Refusal :=
  s.inCycle
    (if triggerBytes.contains imm then .next (s.txWrite imm).advance else .refused (.illegalWord .immediate))

/-- DONE (R123): the cycle ends Ok; `UPC` is not advanced. -/
def execDone (s : State) : Host.Outcome State Fault Refusal :=
  s.inCycle (.next s.finish)

/-- START (R120, R121): accepted in Idle once CFG has been written, else refused. -/
def execStart (s : State) : Host.Outcome State Fault Refusal :=
  match s.st with
  | .awaitingBytes => .refused .startWhileBusy
  | .idle => if s.cfgWritten then .next s.beginCycle else .refused .startBeforeConfig

end Sys2Proof.Machine
end

