-- ==== Sys2Proof/Machine/Dispatch.lean ====
section
/-! DEFINITION. The meaning of each instruction: one arm per constructor of Instr. -/

namespace Sys2Proof.Machine

/-- One instruction executed. -/
def exec (i : Instr) (s : State) : Host.Outcome State Fault Refusal :=
  match i with
  | .txb imm => Sys2Proof.Machine.execTxb imm s
  | .rdu8 rd => Sys2Proof.Machine.execRdu8 rd s
  | .rdu16 rd => Sys2Proof.Machine.execRdu16 rd s
  | .rdi16 rd => Sys2Proof.Machine.execRdi16 rd s
  | .scacc a => Sys2Proof.Machine.execScacc a s
  | .scgyr a => Sys2Proof.Machine.execScgyr a s
  | .fxalt => Sys2Proof.Machine.execFxalt s
  | .fxtmp => Sys2Proof.Machine.execFxtmp s
  | .ivsec => Sys2Proof.Machine.execIvsec s
  | .freq => Sys2Proof.Machine.execFreq s
  | .done => Sys2Proof.Machine.execDone s
  | .start => Sys2Proof.Machine.execStart s

end Sys2Proof.Machine
end

