-- ==== Sys2Proof/Machine/HostPort.lean ====
section
/-! DEFINITION. The host registers H0 to H17 as the host reads them (10_state.md R35 to R38). -/

namespace Sys2Proof.Machine

/-- The output register that host register `h` shows: H8 to H17 are `Y0` to `Y9` (R35). -/
def outputOfHostReg (h : Nat) : Option OutReg :=
  match h with
  | 8 => some .accx | 9 => some .accy | 10 => some .accz
  | 11 => some .gyrx | 12 => some .gyry | 13 => some .gyrz
  | 14 => some .alt | 15 => some .tmp | 16 => some .ivs | 17 => some .frq
  | _ => none

/-- A host read of an output register: its pattern while `KIND` is Ok, no cycle is in progress and its valid bit is set,
else refused (R29, 60_exceptions.md R191, 93 U4). -/
def State.readOutput (s : State) (r : OutReg) : Except Refusal (BitVec 64) :=
  if s.st = .idle ∧ s.kind = .ok ∧ (s.y.get r).valid then .ok (s.y.get r).bits else .error (.outputUnreadable r)

/-- A host read of `CFG`, refused before the host has written it (R36, R45). -/
def State.readConfig (s : State) : Except Refusal (BitVec 64) :=
  if s.cfgWritten then .ok (s.config.setWidth 64) else .error .configUnwritten

/-- The value a host read of register `h` returns, 8-bit registers in bits 7:0: H0 CFG, H1 CTRL reads 0, H2 STATUS, H8 to
H17 the outputs; every other register is reserved and reads 0 (R35). -/
def State.hostValue (s : State) (h : Nat) : Except Refusal (BitVec 64) :=
  match h with
  | 0 => s.readConfig
  | 1 => .ok 0
  | 2 => .ok (s.status.setWidth 64)
  | _ =>
    match outputOfHostReg h with
    | some r => s.readOutput r
    | none => .ok 0

/-- A host read: the value is returned to the host and nothing else changes (R35). -/
def State.hostRead (s : State) (h : Nat) : Host.Outcome State Fault Refusal :=
  match s.hostValue h with
  | .ok v => .next { s with readData := s.readData ++ [(h, v)] }
  | .error r => .refused r

/-- The Sample, a view of the outputs (R30). -/
structure Sample where
  acceleration : Pattern × Pattern × Pattern
  angularVelocity : Pattern × Pattern × Pattern
  altitude : Pattern
  temperature : Pattern
  /-- Absent in variant 2. -/
  intervalSeconds : Option Pattern
  deriving DecidableEq, Repr

/-- The Sample of the last cycle, while it can be read (R30): the frequency is no member of it (R31). -/
def State.sample (s : State) : Option Sample :=
  if s.st = .idle ∧ s.kind = .ok then
    some
      { acceleration := (s.y.accx.bits, s.y.accy.bits, s.y.accz.bits)
        angularVelocity := (s.y.gyrx.bits, s.y.gyry.bits, s.y.gyrz.bits)
        altitude := s.y.alt.bits
        temperature := s.y.tmp.bits
        intervalSeconds := if s.y.ivs.valid then some s.y.ivs.bits else none }
  else none

end Sys2Proof.Machine
end

