-- ==== Sys2Proof/Machine/Fetch.lean ====
section
/-! DEFINITION. What is due in a state: an instruction to execute, or an outcome that needs none (00_scope.md R4, R12;
41_sequencer.md R124). -/

namespace Sys2Proof.Machine

/-- What the next step does. -/
inductive Due where
  /-- Execute `i` in the state `t`. -/
  | run (i : Instr) (t : State)
  /-- No instruction is executed. -/
  | outcome (o : Host.Outcome State Fault Refusal)

/-- The sequencer's turn: while AwaitingBytes it fetches `Rom(UPC)` and decodes it; an illegal word is refused; in Idle
it has no step and everything survives unchanged (41_sequencer.md R124, 60_exceptions.md R193). -/
def State.sequencerDue (s : State) : Due :=
  match s.st with
  | .idle => .outcome (.next s)
  | .awaitingBytes =>
    match decode (rom s.upc) with
    | .ok i => .run i s
    | .error e => .outcome (.refused (.illegalWord e))

/-- A host write: CFG is written, CTRL presents the command its byte holds, every other write is ignored (10_state.md
R35 to R37). -/
def State.hostWriteDue (s : State) (h : Nat) (v : Byte) : Due :=
  match h with
  | 0 => .outcome (.next (s.writeConfig v))
  | 1 =>
    match decodeCtrl v with
    | some i => .run i s
    | none => .outcome (.next s)
  | _ => .outcome (.next s)

/-- What is due: the next turn says who moves; with no turn listed it is the sequencer. -/
def State.due (s : State) : Due :=
  match s.turns.head? with
  | none => s.turnTaken.sequencerDue
  | some .sequencer => s.turnTaken.sequencerDue
  | some (.write h v) => s.turnTaken.hostWriteDue h v
  | some (.read h) => .outcome (s.turnTaken.hostRead h)
  | some .reset => .outcome (.next s.turnTaken.resetBlock)

end Sys2Proof.Machine
end

