-- ==== Sys2Proof/Machine/Step.lean ====
section
/-! DEFINITION. One step of the machine, and placing an instruction where the next step fetches. -/

namespace Sys2Proof.Machine

/-- One step: execute the instruction that is due, or do what is due without one. -/
def step (s : State) : Host.Outcome State Fault Refusal :=
  match s.due with
  | .run i t => exec i t
  | .outcome o => o

/-- `s` with the instruction of `nbits` bits `w` where the next step takes it. A ROM word is selected: the ROM is constant,
so `UPC` is set to an address that holds it, in a cycle, with the turn given to the sequencer. The host command START is
presented: the next turn is the host's write of `w` to CTRL, to an Idle block whose CFG has been written, as its
acceptance takes (41_sequencer.md R120). Log entry 6. -/
def State.withFetchWord (s : State) (nbits w : Nat) : State :=
  if nbits ≤ 8 then
    { s with st := .idle, cfgWritten := true, turns := .write 1 (BitVec.ofNat 8 w) :: s.turns }
  else
    { s with
      st := .awaitingBytes
      upc := romAddressOf (BitVec.ofNat 16 w)
      turns := .sequencer :: s.turns }

end Sys2Proof.Machine
end

