-- ==== Sys2Proof/Safety.lean ====
section
/-! DEFINITION. The terms the claims are written in: the invariant of the block, agreement of two states in everything a
step may depend on, the traces of whole cycles, and views of the event trace. -/

namespace Sys2Proof.Machine

/-! ## Views of the state and of the trace -/

/-- The bytes handed to TX, in order (20_memory.md R50). -/
def txBytes : List Event → List Byte
  | [] => []
  | .tx b :: es => b :: txBytes es
  | _ :: es => txBytes es

/-- The answers to the receive requests, in order (20_memory.md R52). -/
def rxAnswers : List Event → List RxAnswer
  | [] => []
  | .rx a :: es => a :: rxAnswers es
  | _ :: es => rxAnswers es

/-- The result events, in order (41_sequencer.md R128). -/
def results : List Event → List Result
  | [] => []
  | .result r :: es => r :: results es
  | _ :: es => results es

/-- The result event a state that has just returned to Idle belongs to: `Ok`, or the recorded failure (R128). -/
def reportedResult (s : State) : List Result :=
  match s.kind, s.cause with
  | .ok, _ => [.ok]
  | .failed, some c => [.failed s.stage c]
  | _, _ => []

/-- The answer to the `k`-th of the next receive requests, counted from 0 (20_memory.md R52). -/
def State.answerAt (s : State) (k : Nat) : RxAnswer := (s.rx[k]?).getD (Config.rxAnswer (s.rxCount + k))

/-- The 25 legal micro-operation words (30_encoding.md R82). -/
def legalWords : List MicroWord :=
  [0x1041, 0x1047, 0x1042, 0x2700, 0x2800, 0x2900, 0x3600, 0x3A00, 0x4000, 0x4100, 0x4200, 0x4300, 0x4400, 0x4500]
  ++ [0x5000, 0x5100, 0x5200, 0x6000, 0x6100, 0x6200, 0x7000, 0x8000, 0x9000, 0xA000, 0xF000]

/-- The block's registers outside the two files and the counter are the same: `ST`, `VAR`, `KIND`, `STAGE`, `CAUSE`,
`DZ`, `CFG.VARIANT`, `CFGV`. -/
def State.SameControl (s t : State) : Prop :=
  t.st = s.st ∧ t.var = s.var ∧ t.kind = s.kind ∧ t.stage = s.stage ∧ t.cause = s.cause ∧ t.dz = s.dz
    ∧ t.cfgVariant = s.cfgVariant ∧ t.cfgWritten = s.cfgWritten

/-- Nothing happened on the streams: no request, no byte sent, no event (20_memory.md R50). -/
def State.SameStreams (s t : State) : Prop :=
  t.rx = s.rx ∧ t.rxCount = s.rxCount ∧ t.events = s.events

/-- What belongs to the host is untouched: the values returned to it, its turns to come, and `CFG` with `CFGV`. -/
def State.SameHost (s t : State) : Prop :=
  t.readData = s.readData ∧ t.turns = s.turns ∧ t.cfgVariant = s.cfgVariant ∧ t.cfgWritten = s.cfgWritten

/-- It is the sequencer's turn: no host access and no reset comes first. -/
def State.sequencerTurn (s : State) : Prop :=
  s.turns.head? = none ∨ s.turns.head? = some .sequencer

/-! ## The microprograms as data (30_encoding.md R90, R91) -/

/-- The micro-operation at a ROM address, if the word is legal. -/
def romInstr (a : RomAddress) : Option Instr := (decode (rom a)).toOption

/-- The address of a variant's DONE. -/
def doneAddress : Variant → RomAddress
  | .combined => 22
  | .perBlock => 53

/-- The address belongs to the variant's microprogram. -/
def inProgram (v : Variant) (a : RomAddress) : Bool :=
  (entryAddress v).toNat ≤ a.toNat && a.toNat ≤ (doneAddress v).toNat

/-- The raw register an instruction writes (10_state.md R24). -/
def rawDest : Instr → Option RawReg
  | .rdu8 rd => some (.u8 rd)
  | .rdu16 rd => some (.u16 rd)
  | .rdi16 rd => some (.i16 rd)
  | _ => none

/-- The output register an instruction writes (10_state.md R28). -/
def outDest : Instr → Option OutReg
  | .scacc i => some (accDest i)
  | .scgyr i => some (gyrDest i)
  | .fxalt => some .alt
  | .fxtmp => some .tmp
  | .ivsec => some .ivs
  | .freq => some .frq
  | _ => none

/-- The micro-operations of a variant before an address. -/
def opsBefore (v : Variant) (a : RomAddress) : List Instr :=
  (List.range (a.toNat - (entryAddress v).toNat)).filterMap fun k => romInstr (entryAddress v + BitVec.ofNat 6 k)

/-- A micro-operation before the address writes the raw register. -/
def rawWrittenBefore (v : Variant) (a : RomAddress) (r : RawReg) : Bool :=
  (opsBefore v a).any fun i => rawDest i == some r

/-- A micro-operation before the address writes the output register. -/
def outWrittenBefore (v : Variant) (a : RomAddress) (r : OutReg) : Bool :=
  (opsBefore v a).any fun i => outDest i == some r

/-! ## The invariant -/

/-- The pattern that belongs into an output register, as a function of the raw registers alone (42_scaler.md R144). -/
def outputOf (x : RawFile) : OutReg → Pattern
  | .accx => scaleSigned x.ax.bits.toInt accSignificand (2 ^ 59)
  | .accy => scaleSigned x.ay.bits.toInt accSignificand (2 ^ 59)
  | .accz => scaleSigned x.az.bits.toInt accSignificand (2 ^ 59)
  | .gyrx => scaleSigned x.gx.bits.toInt gyrNumerator gyrDenominator
  | .gyry => scaleSigned x.gy.bits.toInt gyrNumerator gyrDenominator
  | .gyrz => scaleSigned x.gz.bits.toInt gyrNumerator gyrDenominator
  | .alt => fixedPoint x.altc.bits.toNat x.altf.bits.toNat
  | .tmp => fixedPoint x.tmpc.bits.toNat x.tmpf.bits.toNat
  | .ivs => intervalSeconds x.ivt.bits.toNat
  | .frq => if x.ivt.bits.toNat = 0 then F64.posInf else reciprocalOf (intervalSeconds x.ivt.bits.toNat)

/-- What holds between any two steps of a run (10_state.md R22, R26, R27, R29, R32 to R34; 42_scaler.md R144). -/
structure State.Inv (s : State) : Prop where
  /-- `WHV` is 0 at every step boundary (R27). -/
  whvClear : s.whv = false
  /-- A cycle runs its own variant's microprogram, never past its DONE (R22). -/
  busyPlace : s.st = .awaitingBytes → inProgram s.var s.upc = true
  /-- During a cycle `KIND` is None, and the host has written CFG (R32, R120). -/
  busyRecord : s.st = .awaitingBytes → s.kind = .none ∧ s.cfgWritten = true
  /-- During a cycle exactly the raw registers the cycle has written are valid (R26). -/
  busyRaw : s.st = .awaitingBytes → ∀ r, s.x.valid r = rawWrittenBefore s.var s.upc r
  /-- During a cycle exactly the output registers the cycle has written are valid (R29). -/
  busyOut : s.st = .awaitingBytes → ∀ r, (s.y.get r).valid = outWrittenBefore s.var s.upc r
  /-- After DONE exactly the registers of the variant's microprogram are valid (R28, R29). -/
  okRaw : s.st = .idle → s.kind = .ok → ∀ r, s.x.valid r = rawWrittenBefore s.var (doneAddress s.var) r
  /-- After DONE exactly the outputs of the variant are valid (R28, R29). -/
  okOut : s.st = .idle → s.kind = .ok → ∀ r, (s.y.get r).valid = outWrittenBefore s.var (doneAddress s.var) r
  /-- In Idle without a successful cycle nothing is valid (R26, R29). -/
  elseRaw : s.st = .idle → s.kind ≠ .ok → ∀ r, s.x.valid r = false
  /-- In Idle without a successful cycle nothing is valid (R26, R29). -/
  elseOut : s.st = .idle → s.kind ≠ .ok → ∀ r, (s.y.get r).valid = false
  /-- `STAGE` and `CAUSE` are 0 unless the last cycle failed (R33). -/
  noFailure : s.kind ≠ .failed → s.stage = .accel ∧ s.cause = none
  /-- A failure has a cause (R33, R172). -/
  failure : s.kind = .failed → s.cause ≠ none
  /-- A valid output is the one that belongs to the raw registers (R144). -/
  scaled : ∀ r, (s.y.get r).valid = true → (s.y.get r).bits = outputOf s.x r
  /-- `DZ` says that the frequency of this cycle was computed from zero ticks (R34, R175). -/
  zeroTicks : s.dz = (s.y.frq.valid && s.x.ivt.bits == 0)

/-! ## Agreement: two states no step and no host read can tell apart -/

/-- Two registers agree: same valid bit, and the same contents if they are valid. -/
def Reg.Agree {w : Nat} (a b : Reg w) : Prop := a.valid = b.valid ∧ (a.valid = true → a.bits = b.bits)

/-- Two states agree in everything but what 10_state.md R45 leaves unspecified: the contents of invalid registers, `WH`,
`UPC` and `VAR` in Idle, `CFG.VARIANT` before it is written. `WHV`, for which R45 states a value, must agree. -/
structure State.Agree (s t : State) : Prop where
  st : s.st = t.st
  upc : s.st = .awaitingBytes → s.upc = t.upc
  var : s.st = .awaitingBytes → s.var = t.var
  i16 : ∀ r, (s.x.getI16 r).Agree (t.x.getI16 r)
  u16 : ∀ r, (s.x.getU16 r).Agree (t.x.getU16 r)
  u8 : ∀ r, (s.x.getU8 r).Agree (t.x.getU8 r)
  whv : s.whv = t.whv
  y : ∀ r, (s.y.get r).Agree (t.y.get r)
  kind : s.kind = t.kind
  stage : s.stage = t.stage
  cause : s.cause = t.cause
  dz : s.dz = t.dz
  cfgWritten : s.cfgWritten = t.cfgWritten
  cfgVariant : s.cfgWritten = true → s.cfgVariant = t.cfgVariant
  rx : s.rx = t.rx
  rxCount : s.rxCount = t.rxCount
  events : s.events = t.events
  readData : s.readData = t.readData
  turns : s.turns = t.turns

/-- Two outcomes agree: the same stop, or next states that agree. -/
def OutcomesAgree : Host.Outcome State Fault Refusal → Host.Outcome State Fault Refusal → Prop
  | .next s, .next t => s.Agree t
  | .fault a, .fault b => a = b
  | .refused a, .refused b => a = b
  | _, _ => False

/-! ## Whole cycles (41_sequencer.md R129, R130) -/

/-- The stage of the `k`-th receive request of a cycle, counted from 1 (R129, R130). -/
def stageOfRequest (k : Nat) : Stage :=
  if k ≤ 6 then .accel else if k ≤ 12 then .gyro else if k ≤ 17 then .baro else .interval

/-- The trigger bytes and requests of a cycle that got these answers, as R129 and R130 order them: variant 1 sends 0x41
and then requests; variant 2 sends 0x47 between the 6th request and the 7th, and 0x42 between the 12th and the 13th. -/
def cycleEvents (v : Variant) (answers : List RxAnswer) : List Event :=
  match v with
  | .combined => .tx 0x41 :: answers.map .rx
  | .perBlock =>
    .tx 0x41 :: (answers.take 6).map .rx
      ++ (if 6 < answers.length then .tx 0x47 :: ((answers.drop 6).take 6).map .rx else [])
      ++ (if 12 < answers.length then .tx 0x42 :: (answers.drop 12).map .rx else [])

/-- The bytes a cycle of the variant receives (00_scope.md R8). -/
def frameLength : Variant → Nat
  | .combined => Config.frameLenV1
  | .perBlock => Config.frameLenV2

/-- An Idle block, configured for the variant, to which START is presented now and which no host access disturbs
afterwards; the ByteSource gives `answers` next. -/
def State.ReadyFor (s : State) (v : Variant) (answers rest : List RxAnswer) : Prop :=
  s.st = .idle ∧ s.cfgWritten = true ∧ s.cfgVariant = v ∧ s.turns = [.write 1 1] ∧ s.rx = answers ++ rest

end Sys2Proof.Machine
end

