-- ==== Sys2Proof/Certificates/Slice0/Obligations.lean ====
section
/-! DEFINITION. The statements for the provers. Each docstring names the rules of spec/ it formalises. -/

open Sys2Proof Sys2Proof.Machine

/-! ## Reset, the invariant, the end of every cycle -/

/-- 10_state.md R45: every value the spec states for reset; the unspecified ones cannot be read; the sequencer takes no
step. -/
def Obligations.ResetHoldsTheStatedValues : Prop :=
  State.reset.st.code = 0 ∧ State.reset.kind.code = 0 ∧ State.reset.stage.code = 0
  ∧ causeCode State.reset.cause = 0 ∧ State.reset.dz = false ∧ State.reset.whv = false ∧ State.reset.cfgWritten = false
  ∧ (∀ r, State.reset.x.valid r = false) ∧ (∀ r, (State.reset.y.get r).valid = false)
  ∧ State.reset.hostValue 0 = .error .configUnwritten
  ∧ (∀ h r, outputOfHostReg h = some r → State.reset.hostValue h = .error (.outputUnreadable r))
  ∧ exec .start State.reset = .refused .startBeforeConfig
  ∧ step State.reset = .next State.reset

/-- 70_reset_and_hazards.md R200, R201: reset applied in any state, also in the middle of a cycle, leaves the stated
values, emits no result event and does not touch the ByteSource. -/
def Obligations.ResetAppliesInEveryState : Prop :=
  ∀ s : State, s.turns.head? = some .reset → ∃ t, step s = .next t
    ∧ t.st = .idle ∧ t.kind = .none ∧ t.stage.code = 0 ∧ causeCode t.cause = 0 ∧ t.dz = false ∧ t.whv = false
    ∧ t.cfgWritten = false ∧ (∀ r, t.x.valid r = false) ∧ (∀ r, (t.y.get r).valid = false)
    ∧ s.SameStreams t ∧ t.readData = s.readData ∧ t.turns = s.turns.tail

/-- The state after reset meets the invariant. -/
def Obligations.InvariantHoldsAtReset : Prop := State.reset.Inv

/-- Every step from a state that meets the invariant, reachable or not, ends in one that meets it. -/
def Obligations.EveryStepKeepsTheInvariant : Prop :=
  ∀ s t : State, s.Inv → step s = .next t → t.Inv

/-- R26 and R84, for every state that meets the invariant: the sequencer never reads an invalid register and never
fetches an illegal word, so a step of its own never faults and is never refused. -/
def Obligations.SequencerNeverStops : Prop :=
  ∀ s : State, s.Inv → s.sequencerTurn → ∃ t, step s = .next t

/-- 20_memory.md R65: with every request answered, a cycle in progress ends within 23 steps, with an outcome on record. -/
def Obligations.EveryCycleEnds : Prop :=
  ∀ s : State, s.Inv → s.st = .awaitingBytes → s.turns = [] →
    ∃ n t, n ≤ 23 ∧ core.run n s = .next t ∧ t.st = .idle ∧ t.kind ≠ .none

/-! ## What no step depends on -/

/-- R45, 93 U11: what reset leaves unspecified (contents of invalid registers, `WH`, `UPC` and `VAR` in Idle, an unwritten
`CFG.VARIANT`) has no effect on any step, on any trace or on any value the host reads. -/
def Obligations.StepsKeepAgreement : Prop :=
  ∀ s t : State, s.Agree t → OutcomesAgree (step s) (step t)

/-- 10_state.md R44: START makes any two blocks with the same CFG agree, whatever their last cycles left behind. -/
def Obligations.StartForgetsTheLastCycle : Prop :=
  ∀ s t : State, s.st = .idle → t.st = .idle → s.cfgWritten = true → t.cfgWritten = true → s.SameStreams t →
    s.readData = t.readData → s.turns = t.turns → s.cfgVariant = t.cfgVariant →
    ∃ s' t', exec .start s = .next s' ∧ exec .start t = .next t' ∧ s'.Agree t'

/-! ## Rules over all steps -/

/-- 41_sequencer.md R128: a step emits a result event exactly when it returns `ST` to Idle (reset apart), and the event
says what KIND, STAGE and CAUSE then hold. -/
def Obligations.OneResultEventPerReturnToIdle : Prop :=
  ∀ s t : State, step s = .next t → s.turns.head? ≠ some .reset →
    results t.events = results s.events ++ (if s.st = .awaitingBytes ∧ t.st = .idle then reportedResult t else [])
    ∧ (s.st = .awaitingBytes → t.st = .idle → (reportedResult t).length = 1)

/-- 30_encoding.md R70: no step hands the ByteSource a byte other than a trigger byte, and the trace only grows. -/
def Obligations.OnlyTriggerBytesAreSent : Prop :=
  ∀ s t : State, step s = .next t →
    ∃ new, t.events = s.events ++ new ∧ ∀ b, Event.tx b ∈ new → b = 0x41 ∨ b = 0x47 ∨ b = 0x42

/-- 20_memory.md R51, R52: a step issues at most two receive requests; each uses up exactly one answer, in the order of
the stream, and is on record with it; no answer is used without a request. -/
def Obligations.RequestsFollowTheStream : Prop :=
  ∀ s t : State, step s = .next t →
    ∃ k, k ≤ 2 ∧ t.rx = s.rx.drop k ∧ t.rxCount = s.rxCount + k
      ∧ rxAnswers t.events = rxAnswers s.events ++ (List.range k).map s.answerAt

/-- 10_state.md R34: `DZ` is set only by FREQ with `IVT` = 0 and cleared only by START (or reset). -/
def Obligations.DivideByZeroFlagWriters : Prop :=
  ∀ s t : State, step s = .next t → t.dz ≠ s.dz →
    (t.dz = true ∧ s.sequencerTurn ∧ s.st = .awaitingBytes ∧ romInstr s.upc = some .freq ∧ s.x.ivt.bits = 0)
    ∨ (t.dz = false ∧ s.st = .idle ∧ t.st = .awaitingBytes)
    ∨ (t.dz = false ∧ s.turns.head? = some .reset)

/-- 10_state.md R32, R33: `KIND`, `STAGE` and `CAUSE` change only by START (to None, 0, 0), by DONE (KIND to Ok), by Abort
(to Failed with its stage and cause), or by reset. -/
def Obligations.OutcomeRecordWriters : Prop :=
  ∀ s t : State, step s = .next t → s.turns.head? ≠ some .reset →
    (t.kind = s.kind ∧ t.stage = s.stage ∧ t.cause = s.cause)
    ∨ (s.st = .idle ∧ t.st = .awaitingBytes ∧ t.kind = .none ∧ t.stage.code = 0 ∧ t.cause = none)
    ∨ (s.st = .awaitingBytes ∧ t.st = .idle ∧ romInstr s.upc = some .done ∧ t.kind = .ok ∧ t.stage = s.stage
        ∧ t.cause = s.cause)
    ∨ (s.st = .awaitingBytes ∧ t.st = .idle ∧ t.kind = .failed ∧ t.cause ≠ none
        ∧ ∃ i, romInstr s.upc = some i ∧ rawDest i ≠ none)

/-- 10_state.md R30, 60_exceptions.md R191: the Sample of a cycle that ended Ok stays as it is, output by output, until the
next accepted START or a reset, which leave no Sample. -/
def Obligations.SampleIsStable : Prop :=
  ∀ s t : State, step s = .next t → s.st = .idle → s.kind = .ok →
    (t.sample = s.sample ∧ t.y = s.y ∧ s.sample ≠ none)
    ∨ (t.sample = none ∧ (t.st = .awaitingBytes ∨ s.turns.head? = some .reset))

/-- 41_sequencer.md R125: the complete list of control transfers. -/
def Obligations.ControlTransfers : Prop :=
  ∀ s t : State, step s = .next t → s.turns.head? ≠ some .reset →
    (s.st = .awaitingBytes → t.st = .awaitingBytes →
      t.var = s.var ∧ t.upc = if s.turns.head? = none ∨ s.turns.head? = some .sequencer then s.upc + 1 else s.upc)
    ∧ (s.st = .idle → t.st = .awaitingBytes →
        t.var = s.cfgVariant ∧ t.upc.toNat = 32 * s.cfgVariant.code.toNat
          ∧ ∃ v : Byte, s.turns.head? = some (.write 1 v) ∧ v[0] = true)
    ∧ (s.st = .awaitingBytes → t.st = .idle →
        s.sequencerTurn ∧ (romInstr s.upc = some .done ∨ ∃ i, romInstr s.upc = some i ∧ rawDest i ≠ none))

/-! ## Encodings and the ROM -/

/-- 30_encoding.md R82, R87: decoding the encoding of a well-formed instruction, whatever its operands, gives it back; a
word the decoder accepts has one meaning, a well-formed one, whose encoding is the word itself. -/
def Obligations.DecodeAndEncodeAgree : Prop :=
  (∀ i : Instr, i.wellFormed = true → decodeEncoding (encode i) = some i)
  ∧ ∀ (w : MicroWord) (i : Instr), decode w = .ok i → encode i = .rom w ∧ i.wellFormed = true

/-- 30_encoding.md R84: a word is illegal exactly if it is none of the 25 legal ones; an unused opcode, an illegal `r` and
an illegal `imm` are each enough; the microprograms hold no illegal word; and a cycle that fetched one would be refused. -/
def Obligations.IllegalWordsAreRefused : Prop :=
  (∀ w : MicroWord, (∃ i, decode w = .ok i) ↔ w ∈ legalWords)
  ∧ (∀ w : MicroWord, decode w = .error .opcode ↔ (opField w).toNat ∈ [0x0, 0xB, 0xC, 0xD, 0xE])
  ∧ (∀ w : MicroWord, immField w ≠ 0 → (opField w).toNat ≠ 1 → ∃ e, decode w = .error e)
  ∧ (∀ w : MicroWord, regField w ≠ 0 → (opField w).toNat ∈ [0x1, 0x7, 0x8, 0x9, 0xA, 0xF] → decode w = .error .register)
  ∧ (∀ w : MicroWord, (opField w).toNat = 1 → immField w ∉ triggerBytes → ∃ e, decode w = .error e)
  ∧ (∀ (v : Variant) (a : RomAddress), inProgram v a = true → rom a ∈ legalWords)
  ∧ (∀ s : State, s.st = .awaitingBytes → s.sequencerTurn → rom s.upc ∉ legalWords →
      ∃ e, step s = .refused (.illegalWord e))

/-- Words written out from the patterns of R82 decode to their micro-operations, one or more of every family. -/
def Obligations.WordsOfTheTableDecode : Prop :=
  decode 0b0001000001000111 = .ok (.txb 0x47) ∧ decode 0b0010100000000000 = .ok (.rdu8 .tmpc)
  ∧ decode 0b0011101000000000 = .ok (.rdu16 .ivt) ∧ decode 0b0100010100000000 = .ok (.rdi16 .gz)
  ∧ decode 0b0101001000000000 = .ok (.scacc .z) ∧ decode 0b0110000100000000 = .ok (.scgyr .y)
  ∧ decode 0b1010000000000000 = .ok .freq ∧ decode 0b1111000000000000 = .ok .done
  ∧ decodeCtrl 0b00000001 = some .start

/-- 30_encoding.md R89 to R92, R94: the microprograms, address by address, the unused words, and the same microprograms
written with the pseudo-instructions. -/
def Obligations.RomHoldsTheTwoMicroprograms : Prop :=
  entryAddress .combined = 0 ∧ entryAddress .perBlock = 32
  ∧ (List.range 23).map (fun a => romInstr (BitVec.ofNat 6 a)) =
      [some (.txb 0x41), some (.rdi16 .ax), some (.rdi16 .ay), some (.rdi16 .az), some (.rdi16 .gx), some (.rdi16 .gy),
        some (.rdi16 .gz), some (.rdu16 .altc), some (.rdu8 .altf), some (.rdu8 .tmpc), some (.rdu8 .tmpf),
        some (.rdu16 .ivt), some (.scacc .x), some (.scacc .y), some (.scacc .z), some (.scgyr .x), some (.scgyr .y),
        some (.scgyr .z), some .fxalt, some .fxtmp, some .ivsec, some .freq, some .done]
  ∧ (List.range 22).map (fun a => romInstr (BitVec.ofNat 6 (32 + a))) =
      [some (.txb 0x41), some (.rdi16 .ax), some (.rdi16 .ay), some (.rdi16 .az), some (.txb 0x47), some (.rdi16 .gx),
        some (.rdi16 .gy), some (.rdi16 .gz), some (.txb 0x42), some (.rdu16 .altc), some (.rdu8 .altf),
        some (.rdu8 .tmpc), some (.rdu8 .tmpf), some (.scacc .x), some (.scacc .y), some (.scacc .z), some (.scgyr .x),
        some (.scgyr .y), some (.scgyr .z), some .fxalt, some .fxtmp, some .done]
  ∧ (∀ a : RomAddress, (22 < a.toNat ∧ a.toNat < 32) ∨ 53 < a.toNat → rom a = 0)
  ∧ romCombined.map (fun w => (decode w).toOption) = (microprogram .combined).map some
  ∧ romPerBlock.map (fun w => (decode w).toOption) = (microprogram .perBlock).map some

/-! ## Steps and instructions -/

/-- 41_sequencer.md R124: in a cycle, on the sequencer's turn, a step executes exactly the micro-operation `Rom(UPC)`
decodes to; around it the step only takes the turn off the list. -/
def Obligations.StepExecutesTheFetchedInstruction : Prop :=
  ∀ (s : State) (i : Instr), s.st = .awaitingBytes → s.sequencerTurn → decode (rom s.upc) = .ok i →
    step s = exec i { s with turns := s.turns.tail }

/-- R124, 60_exceptions.md R193: in Idle the sequencer has no step: nothing but the list of turns changes; a
micro-operation presented all the same is refused (the model's reading, log entry 13). -/
def Obligations.IdleWaits : Prop :=
  (∀ s : State, s.st = .idle → s.sequencerTurn → step s = .next { s with turns := s.turns.tail })
  ∧ ∀ (s : State) (i : Instr), s.st = .idle → i ≠ .start → exec i s = .refused .sequencerIdle

/-- 10_state.md R37: a write to CTRL with bit 0 = 1 presents START, with bit 0 = 0 does nothing, bits 7:1 are ignored; a
read returns 0. -/
def Obligations.CtrlRegister : Prop :=
  (∀ (s : State) (v : Byte), s.turns.head? = some (.write 1 v) →
    step s = if v[0] = true then exec .start { s with turns := s.turns.tail } else .next { s with turns := s.turns.tail })
  ∧ ∀ s : State, s.turns.head? = some (.read 1) →
      step s = .next { s with turns := s.turns.tail, readData := s.readData ++ [(1, 0)] }

/-- An instruction placed by `withFetchWord` is the one the very next step executes. -/
def Obligations.PlacedInstructionRunsNext : Prop :=
  (∀ (s : State) (w : Nat) (i : Instr), w < 65536 → decodeTableWord 16 w = some i →
    rom (romAddressOf (BitVec.ofNat 16 w)) = BitVec.ofNat 16 w
    ∧ step (s.withFetchWord 16 w) =
        exec i { s with st := .awaitingBytes, upc := romAddressOf (BitVec.ofNat 16 w) })
  ∧ ∀ (s : State) (w : Nat), w < 256 → decodeTableWord 8 w = some .start →
      step (s.withFetchWord 8 w) = exec .start { s with st := .idle, cfgWritten := true }

/-! ## START, TXB, DONE, Abort (41_sequencer.md) -/

/-- R120: START, presented by a host write of a value with bit 0 = 1 to CTRL, is accepted in Idle once CFG has been
written, and refused otherwise: not queued, not ignored. -/
def Obligations.StartAcceptance : Prop :=
  ∀ (s : State) (v : Byte), s.turns.head? = some (.write 1 v) → v[0] = true →
    (s.st = .idle → s.cfgWritten = true → ∃ t, step s = .next t ∧ t.st = .awaitingBytes)
    ∧ (s.st = .awaitingBytes → step s = .refused .startWhileBusy)
    ∧ (s.st = .idle → s.cfgWritten = false → step s = .refused .startBeforeConfig)

/-- R121: the effect of an accepted START; it sends nothing, requests nothing and does not flush RX, and no result of the
cycle before is readable any more. -/
def Obligations.StartBeginsACycle : Prop :=
  ∀ s : State, s.st = .idle → s.cfgWritten = true → ∃ t, exec .start s = .next t
    ∧ t.st = .awaitingBytes ∧ t.var = s.cfgVariant ∧ t.upc.toNat = 32 * s.cfgVariant.code.toNat
    ∧ (∀ r, t.x.valid r = false) ∧ (∀ r, (t.y.get r).valid = false) ∧ t.whv = false
    ∧ t.kind = .none ∧ t.stage.code = 0 ∧ causeCode t.cause = 0 ∧ t.dz = false ∧ t.status = 0x01
    ∧ s.SameStreams t ∧ s.SameHost t
    ∧ ∀ h r, outputOfHostReg h = some r → t.hostValue h = .error (.outputUnreadable r)

/-- R122: TXB hands its trigger byte to TX and advances; it cannot fail and changes nothing else. -/
def Obligations.TxbSendsItsByte : Prop :=
  ∀ (s : State) (imm : Byte), s.st = .awaitingBytes → imm = 0x41 ∨ imm = 0x47 ∨ imm = 0x42 →
    decode (microWord 0x1 0 imm) = .ok (.txb imm) ∧ ∃ t, exec (.txb imm) s = .next t ∧ t.events = s.events ++ [.tx imm] ∧ t.upc = s.upc + 1
      ∧ t.x = s.x ∧ t.y = s.y ∧ t.wh = s.wh ∧ t.whv = s.whv ∧ s.SameControl t ∧ t.rx = s.rx ∧ t.rxCount = s.rxCount
      ∧ s.SameHost t

/-- R84: TXB with an immediate that is no trigger byte is illegal (the model refuses the term too, log entry 18). -/
def Obligations.TxbIllegalImmediate : Prop :=
  ∀ (s : State) (imm : Byte), s.st = .awaitingBytes → imm ∉ triggerBytes →
    exec (.txb imm) s = .refused (.illegalWord .immediate)

/-- R123: DONE ends the cycle Ok, reports it, and leaves every register, `DZ` and `UPC` as they are. -/
def Obligations.DoneEndsTheCycle : Prop :=
  ∀ s : State, s.st = .awaitingBytes → decode 0b1111000000000000 = .ok .done ∧ ∃ t, exec .done s = .next t
    ∧ t.kind = .ok ∧ t.st = .idle ∧ t.events = s.events ++ [.result .ok]
    ∧ t.status = (if s.dz then 0x82 else 0x02)
    ∧ t.x = s.x ∧ t.y = s.y ∧ t.wh = s.wh ∧ t.whv = s.whv ∧ t.dz = s.dz ∧ t.var = s.var ∧ t.upc = s.upc
    ∧ t.stage = s.stage ∧ t.cause = s.cause ∧ t.rx = s.rx ∧ t.rxCount = s.rxCount ∧ s.SameHost t

/-- R126, 60_exceptions.md R179: what Abort saves and changes. -/
def Obligations.AbortRecordsTheFailure : Prop :=
  ∀ (s : State) (g : Stage) (c : Cause),
    (s.abort g c).st = .idle ∧ (∀ r, (s.abort g c).x.valid r = false) ∧ (∀ r, ((s.abort g c).y.get r).valid = false)
    ∧ (s.abort g c).whv = false ∧ (s.abort g c).kind = .failed ∧ (s.abort g c).stage = g ∧ (s.abort g c).cause = some c
    ∧ (s.abort g c).events = s.events ++ [.result (.failed g c)] ∧ (s.abort g c).dz = s.dz
    ∧ (s.abort g c).rx = s.rx ∧ (s.abort g c).rxCount = s.rxCount ∧ (s.abort g c).var = s.var ∧ (s.abort g c).upc = s.upc
    ∧ (s.abort g c).wh = s.wh ∧ (∀ r, (s.abort g c).x.value r = s.x.value r) ∧ s.SameHost (s.abort g c)

/-- R131: only the three FrameReader micro-operations can abort: every other instruction that answers a next state emits
nothing, one transmitted byte, or `Result(Ok)`. -/
def Obligations.OnlyReadsAbort : Prop :=
  ∀ (i : Instr) (s t : State), rawDest i = none → exec i s = .next t →
    (t.kind = .failed → s.kind = .failed)
    ∧ (t.events = s.events ∨ (∃ b, t.events = s.events ++ [.tx b]) ∨ t.events = s.events ++ [.result .ok])

/-! ## The FrameReader (40_frame_reader.md) -/

/-- R101: RDU8 stores one byte unmasked and unsigned, or aborts in stage baro. -/
def Obligations.Rdu8ReadsOneByte : Prop :=
  ∀ (s : State) (rd : U8Reg), s.st = .awaitingBytes →
    decode (microWord 0x2 rd.index 0) = .ok (.rdu8 rd)
    ∧ (∀ b, s.nextAnswer = .byte b → ∃ t, exec (.rdu8 rd) s = .next t
      ∧ t.x.valid (.u8 rd) = true ∧ t.x.value (.u8 rd) = b.toNat ∧ t.upc = s.upc + 1 ∧ s.SameControl t
      ∧ t.rx = s.rx.tail ∧ t.rxCount = s.rxCount + 1 ∧ t.events = s.events ++ [.rx (.byte b)])
    ∧ (s.nextAnswer = .timeout → exec (.rdu8 rd) s = .next (s.requestAnswered.abort .baro .ioTimeout))
    ∧ (s.nextAnswer = .closed → exec (.rdu8 rd) s = .next (s.requestAnswered.abort .baro .streamClosed))

/-- R102: RDU16 stores two bytes, the first the more significant, never folded; the first answer that is no byte aborts,
in stage baro for ALTC and interval for IVT. -/
def Obligations.Rdu16ReadsABigEndianWord : Prop :=
  ∀ (s : State) (rd : U16Reg), s.st = .awaitingBytes →
    decode (microWord 0x3 rd.index 0) = .ok (.rdu16 rd)
    ∧ (∀ b0 b1, s.nextAnswer = .byte b0 → s.requestAnswered.nextAnswer = .byte b1 → ∃ t, exec (.rdu16 rd) s = .next t
      ∧ t.x.valid (.u16 rd) = true ∧ t.x.value (.u16 rd) = b0.toNat * 256 + b1.toNat ∧ t.upc = s.upc + 1
      ∧ s.SameControl t ∧ t.wh = b0 ∧ t.whv = false
      ∧ t.rx = s.rx.drop 2 ∧ t.rxCount = s.rxCount + 2 ∧ t.events = s.events ++ [.rx (.byte b0), .rx (.byte b1)])
    ∧ (∀ c, answerCause s.nextAnswer = some c →
        exec (.rdu16 rd) s = .next (s.requestAnswered.abort (if rd = .altc then .baro else .interval) c))
    ∧ (∀ b0 c, s.nextAnswer = .byte b0 → answerCause s.requestAnswered.nextAnswer = some c →
        exec (.rdu16 rd) s = .next
          ((s.requestAnswered.latchHigh b0).requestAnswered.abort (if rd = .altc then .baro else .interval) c))

/-- R103: RDI16 stores two bytes, the first the more significant, folded: 65536 is subtracted from 32768 and above; the
first answer that is no byte aborts, in stage accel for AX, AY, AZ and gyro for GX, GY, GZ. -/
def Obligations.Rdi16ReadsAFoldedWord : Prop :=
  ∀ (s : State) (rd : I16Reg), s.st = .awaitingBytes →
    decode (microWord 0x4 rd.index 0) = .ok (.rdi16 rd)
    ∧ (∀ b0 b1, s.nextAnswer = .byte b0 → s.requestAnswered.nextAnswer = .byte b1 → ∃ t, exec (.rdi16 rd) s = .next t
      ∧ t.x.valid (.i16 rd) = true
      ∧ t.x.value (.i16 rd) =
          (if b0.toNat * 256 + b1.toNat < 32768 then ((b0.toNat * 256 + b1.toNat : Nat) : Int)
            else ((b0.toNat * 256 + b1.toNat : Nat) : Int) - 65536)
      ∧ t.upc = s.upc + 1 ∧ s.SameControl t ∧ t.wh = b0 ∧ t.whv = false
      ∧ t.rx = s.rx.drop 2 ∧ t.rxCount = s.rxCount + 2 ∧ t.events = s.events ++ [.rx (.byte b0), .rx (.byte b1)])
    ∧ (∀ c, answerCause s.nextAnswer = some c →
        exec (.rdi16 rd) s = .next
          (s.requestAnswered.abort (if rd = .ax ∨ rd = .ay ∨ rd = .az then .accel else .gyro) c))
    ∧ (∀ b0 c, s.nextAnswer = .byte b0 → answerCause s.requestAnswered.nextAnswer = some c →
        exec (.rdi16 rd) s = .next
          ((s.requestAnswered.latchHigh b0).requestAnswered.abort
            (if rd = .ax ∨ rd = .ay ∨ rd = .az then .accel else .gyro) c))

/-- R100: what a FrameReader micro-operation that does not abort leaves unchanged: every register but its destination
(and `WH`, `WHV` for the 16-bit ones), every flag, the outputs, the host's side, and it sends nothing. -/
def Obligations.FrameReaderFrame : Prop :=
  ∀ (i : Instr) (d : RawReg) (s t : State), rawDest i = some d → exec i s = .next t → t.st = .awaitingBytes →
    (∀ r, r ≠ d → t.x.valid r = s.x.valid r ∧ t.x.value r = s.x.value r) ∧ t.y = s.y
    ∧ ((∃ rd, i = .rdu8 rd) → t.wh = s.wh ∧ t.whv = s.whv) ∧ s.SameControl t ∧ s.SameHost t
    ∧ txBytes t.events = txBytes s.events ∧ results t.events = results s.events

/-- 20_memory.md R55, R104: a 16-bit read whose second request fails keeps the first byte consumed, writes no register,
leaves nothing valid and reports the failure. -/
def Obligations.PartialReadPropagates : Prop :=
  ∀ (i : Instr) (d : RawReg) (s : State) (b0 : Byte) (c : Cause), rawDest i = some d → (∀ r, d ≠ .u8 r) →
    s.st = .awaitingBytes → s.nextAnswer = .byte b0 → answerCause s.requestAnswered.nextAnswer = some c →
    ∃ t g, exec i s = .next t ∧ t.st = .idle ∧ t.kind = .failed ∧ t.stage = g ∧ t.cause = some c
      ∧ (∀ r, t.x.valid r = false ∧ t.x.value r = s.x.value r) ∧ (∀ r, (t.y.get r).valid = false) ∧ t.whv = false
      ∧ t.rx = s.rx.drop 2
      ∧ t.events = s.events ++ [.rx (.byte b0), .rx s.requestAnswered.nextAnswer, .result (.failed g c)]

/-! ## The scaler (42_scaler.md) -/

/-- R145: SCACC i writes `rn(x[i] * C_ACC)` into `y[i]`, for every i16 value. -/
def Obligations.ScaccScalesTheAcceleration : Prop :=
  ∀ (s : State) (i : Axis) (src : I16Reg) (dst : OutReg), src.index = i.index →
    outputOfHostReg (8 + i.index.toNat) = some dst → s.st = .awaitingBytes → s.x.valid (.i16 src) = true →
    decode (microWord 0x5 i.index 0) = .ok (.scacc i)
    ∧ ∃ t, exec (.scacc i) s = .next t ∧ (t.y.get dst).valid = true ∧ t.upc = s.upc + 1 ∧ s.SameControl t
      ∧ F64.value (t.y.get dst).bits = some (F64.rn ((s.x.value (.i16 src) : ℚ) * (5522539043063071 / 2 ^ 59)))

/-- R146: SCGYR i writes `x[3+i] * 125/16384` into `y[3+i]`, exactly, for every i16 value. -/
def Obligations.ScgyrScalesTheRateExactly : Prop :=
  ∀ (s : State) (i : Axis) (src : I16Reg) (dst : OutReg), src.index = 3 + i.index →
    outputOfHostReg (11 + i.index.toNat) = some dst → s.st = .awaitingBytes → s.x.valid (.i16 src) = true →
    decode (microWord 0x6 i.index 0) = .ok (.scgyr i)
    ∧ ∃ t, exec (.scgyr i) s = .next t ∧ (t.y.get dst).valid = true ∧ t.upc = s.upc + 1 ∧ s.SameControl t
      ∧ F64.value (t.y.get dst).bits = some ((s.x.value (.i16 src) : ℚ) * 125 / 16384)

/-- R147: FXALT writes `ALTC + ALTF/16` into `y[6]`, exactly; the fraction byte is not masked. -/
def Obligations.FxaltAddsTheFraction : Prop :=
  ∀ s : State, s.st = .awaitingBytes → s.x.altc.valid = true → s.x.altf.valid = true →
    decode 0b0111000000000000 = .ok .fxalt
    ∧ ∃ t, exec .fxalt s = .next t ∧ t.y.alt.valid = true ∧ t.upc = s.upc + 1 ∧ s.SameControl t
      ∧ F64.value t.y.alt.bits = some ((s.x.altc.bits.toNat : ℚ) + (s.x.altf.bits.toNat : ℚ) / 16)

/-- R148: FXTMP writes `TMPC + TMPF/16` into `y[7]`, exactly; the coarse byte is unsigned. -/
def Obligations.FxtmpAddsTheFraction : Prop :=
  ∀ s : State, s.st = .awaitingBytes → s.x.tmpc.valid = true → s.x.tmpf.valid = true →
    decode 0b1000000000000000 = .ok .fxtmp
    ∧ ∃ t, exec .fxtmp s = .next t ∧ t.y.tmp.valid = true ∧ t.upc = s.upc + 1 ∧ s.SameControl t
      ∧ F64.value t.y.tmp.bits = some ((s.x.tmpc.bits.toNat : ℚ) + (s.x.tmpf.bits.toNat : ℚ) / 16)

/-- R149: IVSEC writes `rn(IVT / 10^7)` into `y[8]`. -/
def Obligations.IvsecDividesTheTicks : Prop :=
  ∀ s : State, s.st = .awaitingBytes → s.x.ivt.valid = true →
    decode 0b1001000000000000 = .ok .ivsec
    ∧ ∃ t, exec .ivsec s = .next t ∧ t.y.ivs.valid = true ∧ t.upc = s.upc + 1 ∧ s.SameControl t
      ∧ F64.value t.y.ivs.bits = some (F64.rn ((s.x.ivt.bits.toNat : ℚ) / 10000000))

/-- R150: with `IVT` = 0 FREQ writes `+INF`, sets `DZ` and goes on, whatever `IVS` holds; with `IVT` not 0 it writes
`rn(1/IVS)`, for every value `v` of `IVS` whose reciprocal is in the range of R141, and leaves `DZ` as it is. It completes
on every other pattern of `IVS` too; the value written there is free (log entry 9, DESIGN CHOICE: the
spec states no result there) and nothing is said of it. -/
def Obligations.FreqTakesTheReciprocal : Prop :=
  ∀ s : State, s.st = .awaitingBytes → s.x.ivt.valid = true →
    decode 0b1010000000000000 = .ok .freq
    ∧ (s.x.ivt.bits = 0 → ∃ t, exec .freq s = .next t ∧ t.y.frq.valid = true ∧ t.y.frq.bits = 0x7FF0000000000000
        ∧ t.dz = true ∧ t.upc = s.upc + 1 ∧ t.st = .awaitingBytes)
    ∧ (s.x.ivt.bits ≠ 0 → s.y.ivs.valid = true → ∃ t, exec .freq s = .next t ∧ t.y.frq.valid = true ∧ s.SameControl t
        ∧ t.upc = s.upc + 1
        ∧ ∀ v : ℚ, F64.value s.y.ivs.bits = some v → (2 : ℚ) ^ (-1022 : ℤ) ≤ |v| → |v| ≤ (2 : ℚ) ^ (1022 : ℤ) →
            F64.value t.y.frq.bits = some (F64.rn (1 / v)))

/-- R149 and R150 together: executed one after the other on ticks `n` not 0, IVSEC and FREQ both complete, and `FRQ` then
holds `rn(1 / rn(n / 10^7))`: two roundings. The same of the two datapath functions alone, for every count of ticks. -/
def Obligations.FrequencyRoundsTwice : Prop :=
  (∀ s : State, s.st = .awaitingBytes → s.x.ivt.valid = true → s.x.ivt.bits ≠ 0 →
    ∃ u t, exec .ivsec s = .next u ∧ exec .freq u = .next t ∧ t.y.frq.valid = true
      ∧ F64.value t.y.frq.bits = some (F64.rn (1 / F64.rn ((s.x.ivt.bits.toNat : ℚ) / 10000000))))
  ∧ ∀ n : Nat, 0 < n → n < 65536 →
      F64.value (reciprocalOf (intervalSeconds n)) = some (F64.rn (1 / F64.rn ((n : ℚ) / 10000000)))

/-- R144: a scaler micro-operation runs in a cycle only, makes its destination valid and advances; what it leaves unchanged: the raw registers, every output but its destination, the
streams, every flag but FREQ's `DZ` on zero ticks, the host's side. -/
def Obligations.ScalerFrame : Prop :=
  ∀ (i : Instr) (d : OutReg) (s t : State), outDest i = some d → exec i s = .next t →
    s.st = .awaitingBytes ∧ t.upc = s.upc + 1 ∧ (t.y.get d).valid = true
    ∧ t.x = s.x ∧ (∀ r, r ≠ d → t.y.get r = s.y.get r) ∧ t.wh = s.wh ∧ t.whv = s.whv ∧ t.st = s.st ∧ t.var = s.var
    ∧ t.kind = s.kind ∧ t.stage = s.stage ∧ t.cause = s.cause
    ∧ (i ≠ .freq ∨ s.x.ivt.bits ≠ 0 → t.dz = s.dz) ∧ s.SameStreams t ∧ s.SameHost t

/-- R26, 00_scope.md R13: reading a register whose valid bit is 0 is a fault, for every operand of every scaler
micro-operation. Which register the fault of FXALT, FXTMP and FREQ names when both operands are invalid is the model's
choice, the first in the order of the pseudocode (log entry 16, DESIGN CHOICE): the spec gives no order among faults. -/
def Obligations.InvalidOperandsFault : Prop :=
  ∀ s : State, s.st = .awaitingBytes →
    (∀ i, s.x.valid (.i16 (accSource i)) = false → exec (.scacc i) s = .fault (.invalidRaw (.i16 (accSource i))))
    ∧ (∀ i, s.x.valid (.i16 (gyrSource i)) = false → exec (.scgyr i) s = .fault (.invalidRaw (.i16 (gyrSource i))))
    ∧ (s.x.altc.valid = false → exec .fxalt s = .fault (.invalidRaw (.u16 .altc)))
    ∧ (s.x.altc.valid = true → s.x.altf.valid = false → exec .fxalt s = .fault (.invalidRaw (.u8 .altf)))
    ∧ (s.x.tmpc.valid = false → exec .fxtmp s = .fault (.invalidRaw (.u8 .tmpc)))
    ∧ (s.x.tmpc.valid = true → s.x.tmpf.valid = false → exec .fxtmp s = .fault (.invalidRaw (.u8 .tmpf)))
    ∧ (s.x.ivt.valid = false → exec .ivsec s = .fault (.invalidRaw (.u16 .ivt)))
    ∧ (s.x.ivt.valid = false → exec .freq s = .fault (.invalidRaw (.u16 .ivt)))
    ∧ (s.x.ivt.valid = true → s.x.ivt.bits ≠ 0 → s.y.ivs.valid = false → exec .freq s = .fault (.invalidOut .ivs))

/-! ## Numbers (42_scaler.md) -/

/-- R141: the integer datapath computes `rn`, over the whole range the rule covers below 2^1023. -/
def Obligations.DatapathRoundsAsRn : Prop :=
  ∀ (neg : Bool) (p d : Nat), 0 < p → 0 < d → (2 : ℚ) ^ (-1022 : ℤ) ≤ (p : ℚ) / d → (p : ℚ) / d < (2 : ℚ) ^ (1023 : ℤ) →
    F64.value (F64.roundQuot neg p d) = some (F64.rn ((if neg then -1 else 1) * ((p : ℚ) / d)))

/-- R141: `rn(q)` is nearest to `q` among all numbers of at most 53 significant bits. -/
def Obligations.RnIsNearest : Prop :=
  ∀ (q : ℚ) (m e : ℤ), |m| ≤ 2 ^ 53 → |F64.rn q - q| ≤ |(m : ℚ) * (2 : ℚ) ^ e - q|

/-- R141: `rn` leaves every number of at most 53 significant bits as it is, `rn(-q) = -rn(q)`, and `rn` is monotone. -/
def Obligations.RnIsExactOddAndMonotone : Prop :=
  (∀ m e : ℤ, |m| ≤ 2 ^ 53 → F64.rn ((m : ℚ) * (2 : ℚ) ^ e) = (m : ℚ) * (2 : ℚ) ^ e)
  ∧ (∀ q : ℚ, F64.rn (-q) = -F64.rn q)
  ∧ ∀ q r : ℚ, q ≤ r → F64.rn q ≤ F64.rn r

/-- R142, R143: the two scale literals, evaluated left to right in binary64, and their patterns. -/
def Obligations.ScaleLiterals : Prop :=
  F64.rn (981 / 100) = 5522539043063071 / 2 ^ 49 ∧ F64.value 0x40239EB851EB851F = some (5522539043063071 / 2 ^ 49)
  ∧ F64.rn (F64.rn (F64.rn (F64.rn (981 / 100) * 2) * 2) / 4096) = 5522539043063071 / 2 ^ 59
  ∧ F64.value 0x3F839EB851EB851F = some (5522539043063071 / 2 ^ 59)
  ∧ (981 / 102400 : ℚ) < 5522539043063071 / 2 ^ 59
  ∧ F64.rn (F64.rn (250 * 2) / 65536) = 125 / 16384 ∧ F64.value 0x3F7F400000000000 = some (125 / 16384)

/-- R163: no output is a NaN, a negative zero or a subnormal for any raw values, and `+INF` is only the frequency of zero
ticks. -/
def Obligations.OutputsAreFiniteOrTheOneInfinity : Prop :=
  ∀ (x : RawFile) (r : OutReg), F64.isElement (outputOf x r) = true
    ∧ (outputOf x r = F64.posInf ↔ r = .frq ∧ x.ivt.bits = 0)

/-- R165: the bounds of every output over all raw values, and of the magnitudes other than 0. A decimal of the table that
is no binary64 value stands for the value nearest to it. -/
def Obligations.OutputRanges : Prop :=
  ∀ x : RawFile,
    (∀ r, r = .accx ∨ r = .accy ∨ r = .accz → ∃ v, F64.value (outputOf x r) = some v
      ∧ -(5522539043063071 / 2 ^ 44) ≤ v ∧ v ≤ F64.rn 313.910419921875
      ∧ (v = 0 ∨ 5522539043063071 / 2 ^ 59 ≤ |v|))
    ∧ (∀ r, r = .gyrx ∨ r = .gyry ∨ r = .gyrz → ∃ v, F64.value (outputOf x r) = some v
      ∧ -250 ≤ v ∧ v ≤ 249.99237060546875 ∧ (v = 0 ∨ 125 / 16384 ≤ |v|))
    ∧ (∃ v, F64.value (outputOf x .alt) = some v ∧ 0 ≤ v ∧ v ≤ 65550.9375 ∧ (v = 0 ∨ 1 / 16 ≤ v))
    ∧ (∃ v, F64.value (outputOf x .tmp) = some v ∧ 0 ≤ v ∧ v ≤ 270.9375 ∧ (v = 0 ∨ 1 / 16 ≤ v))
    ∧ (∃ v, F64.value (outputOf x .ivs) = some v ∧ 0 ≤ v ∧ v ≤ F64.rn 0.0065535 ∧ (v = 0 ∨ F64.rn (1 / 10000000) ≤ v))
    ∧ (x.ivt.bits ≠ 0 → ∃ v, F64.value (outputOf x .frq) = some v ∧ F64.rn 152.59021896696422 ≤ v ∧ v ≤ 10000000)

/-- R161: SCACC and SCGYR give the sign of the raw value, SCACC of `-n` is the negative of SCACC of `n`, and the other
outputs are never negative. -/
def Obligations.SignsOfTheOutputs : Prop :=
  (∀ (n : Int) (p d : Nat), -32768 ≤ n → n ≤ 32767 →
      (p = accSignificand ∧ d = 2 ^ 59) ∨ (p = gyrNumerator ∧ d = gyrDenominator) →
      ∃ v, F64.value (scaleSigned n p d) = some v ∧ (0 < v ↔ 0 < n) ∧ (v < 0 ↔ n < 0)
        ∧ (n ≠ -32768 → F64.value (scaleSigned (-n) p d) = some (-v)))
  ∧ ∀ (x : RawFile) (r : OutReg), r = .alt ∨ r = .tmp ∨ r = .ivs ∨ r = .frq → F64.signBit (outputOf x r) = false

/-- R166: the raw integer can be recovered from either scaled output. -/
def Obligations.RawValueIsRecoverable : Prop :=
  ∀ n : Int, -32768 ≤ n → n ≤ 32767 →
    (∃ v, F64.value (scaleSigned n accSignificand (2 ^ 59)) = some v
      ∧ |v / (5522539043063071 / 2 ^ 59) - n| < (2 : ℚ) ^ (-36 : ℤ))
    ∧ ∃ v, F64.value (scaleSigned n gyrNumerator gyrDenominator) = some v ∧ v / (125 / 16384) = n

/-! ## The host registers (10_state.md) -/

/-- R38: the fields of STATUS and what a read of H2 returns. -/
def Obligations.StatusFields : Prop :=
  (∀ s : State, s.status.extractLsb' 0 1 = s.st.code
    ∧ s.status.extractLsb' 1 2 = (if s.st = .idle then s.kind.code else 0)
    ∧ s.status.extractLsb' 3 2 = (if s.st = .idle ∧ s.kind = .failed then s.stage.code else 0)
    ∧ s.status.extractLsb' 5 2 = (if s.st = .idle ∧ s.kind = .failed then causeCode s.cause else 0)
    ∧ s.status[7] = s.dz)
  ∧ State.reset.status = 0
  ∧ ∀ s : State, s.turns.head? = some (.read 2) →
      step s = .next { s with turns := s.turns.tail, readData := s.readData ++ [(2, s.status.setWidth 64)] }

/-- R36, R23, 70_reset_and_hazards.md R209: a write to CFG takes bit 0, sets `CFGV` and changes nothing else, `VAR` and
the cycle in progress included; a read returns VARIANT in bit 0 once CFG has been written. -/
def Obligations.ConfigRegister : Prop :=
  (∀ (s : State) (v : Byte), s.turns.head? = some (.write 0 v) →
    step s = .next
      { s with
        turns := s.turns.tail
        cfgVariant := if v[0] = true then .perBlock else .combined
        cfgWritten := true })
  ∧ (∀ s : State, s.turns.head? = some (.read 0) → s.cfgWritten = true →
      step s = .next
        { s with
          turns := s.turns.tail
          readData := s.readData ++ [(0, if s.cfgVariant = .perBlock then 1 else 0)] })
  ∧ ∀ s : State, s.turns.head? = some (.read 0) → s.cfgWritten = false → step s = .refused .configUnwritten

/-- R35: H3 to H7 and H18 upward read as 0; writes to every register but CFG and CTRL are ignored. -/
def Obligations.ReservedHostRegisters : Prop :=
  (∀ (s : State) (h : Nat), s.turns.head? = some (.read h) → (3 ≤ h ∧ h ≤ 7) ∨ 18 ≤ h →
    step s = .next { s with turns := s.turns.tail, readData := s.readData ++ [(h, 0)] })
  ∧ ∀ (s : State) (h : Nat) (v : Byte), s.turns.head? = some (.write h v) → 2 ≤ h →
      step s = .next { s with turns := s.turns.tail }

/-- R29, 60_exceptions.md R191: H8 to H17 return the output patterns while `KIND` is Ok, no cycle runs and the register is
valid; every other read of them is refused (during a cycle: the model's reading, log entry 10). -/
def Obligations.OutputRegisters : Prop :=
  ∀ (s : State) (h : Nat) (r : OutReg), outputOfHostReg h = some r → s.turns.head? = some (.read h) →
    (s.st = .idle → s.kind = .ok → (s.y.get r).valid = true →
      step s = .next { s with turns := s.turns.tail, readData := s.readData ++ [(h, (s.y.get r).bits)] })
    ∧ (s.st = .awaitingBytes ∨ s.kind ≠ .ok ∨ (s.y.get r).valid = false → step s = .refused (.outputUnreadable r))

/-- 10_state.md R35: a host access that answers a next state changes nothing of the block but what its
register says: a read changes only the values returned, a write changes `CFG` and `CFGV` (H0), presents START (H1), or
changes nothing. -/
def Obligations.HostAccessFrame : Prop :=
  (∀ (s t : State) (h : Nat), s.turns.head? = some (.read h) → step s = .next t →
    ∃ v, t = { s with turns := s.turns.tail, readData := s.readData ++ [(h, v)] })
  ∧ ∀ (s t : State) (h : Nat) (v : Byte), s.turns.head? = some (.write h v) → step s = .next t →
      t.readData = s.readData ∧ t.turns = s.turns.tail ∧ s.SameStreams t ∧ t.wh = s.wh
      ∧ (h ≠ 0 → t.cfgVariant = s.cfgVariant ∧ t.cfgWritten = s.cfgWritten)
      ∧ (h ≠ 1 ∨ v[0] = false →
          t.x = s.x ∧ t.y = s.y ∧ t.upc = s.upc ∧ t.whv = s.whv ∧ t.st = s.st ∧ t.var = s.var ∧ t.kind = s.kind
            ∧ t.stage = s.stage ∧ t.cause = s.cause ∧ t.dz = s.dz)

/-! ## Whole cycles (41_sequencer.md R129, R130) -/

/-- R129, R130: when every request is answered by a byte, START is followed by exactly the trigger bytes and requests of
the variant, then `Result(Ok)`; no answer beyond the frame is used. -/
def Obligations.CompleteCycle : Prop :=
  ∀ (v : Variant) (bs : List Byte) (rest : List RxAnswer) (s : State), bs.length = frameLength v →
    s.ReadyFor v (bs.map .byte) rest →
    ∃ n t, n ≤ 24 ∧ core.run n s = .next t ∧ t.st = .idle ∧ t.kind = .ok
      ∧ t.events = s.events ++ cycleEvents v (bs.map .byte) ++ [.result .ok]
      ∧ t.rx = rest ∧ t.rxCount = s.rxCount + frameLength v

/-- 30_encoding.md R72, R73: after a complete cycle the raw registers hold the fields of the frame at the offsets of the
wire layout, and every output of the variant is valid and is the scaled value of its fields. -/
def Obligations.CompleteCycleDecodesTheFrame : Prop :=
  ∀ (v : Variant) (bs : List Byte) (rest : List RxAnswer) (s : State), bs.length = frameLength v →
    s.ReadyFor v (bs.map .byte) rest →
    ∃ n t, n ≤ 24 ∧ core.run n s = .next t ∧ t.st = .idle ∧ t.kind = .ok
      ∧ t.x.ax = ⟨bigEndian (bs.getD 0 0) (bs.getD 1 0), true⟩ ∧ t.x.ay = ⟨bigEndian (bs.getD 2 0) (bs.getD 3 0), true⟩
      ∧ t.x.az = ⟨bigEndian (bs.getD 4 0) (bs.getD 5 0), true⟩ ∧ t.x.gx = ⟨bigEndian (bs.getD 6 0) (bs.getD 7 0), true⟩
      ∧ t.x.gy = ⟨bigEndian (bs.getD 8 0) (bs.getD 9 0), true⟩ ∧ t.x.gz = ⟨bigEndian (bs.getD 10 0) (bs.getD 11 0), true⟩
      ∧ t.x.altc = ⟨bigEndian (bs.getD 12 0) (bs.getD 13 0), true⟩ ∧ t.x.altf = ⟨bs.getD 14 0, true⟩
      ∧ t.x.tmpc = ⟨bs.getD 15 0, true⟩ ∧ t.x.tmpf = ⟨bs.getD 16 0, true⟩
      ∧ (v = .combined → t.x.ivt = ⟨bigEndian (bs.getD 17 0) (bs.getD 18 0), true⟩)
      ∧ (∀ r, v = .combined ∨ (r ≠ .ivs ∧ r ≠ .frq) → t.y.get r = ⟨outputOf t.x r, true⟩)
      ∧ (v = .perBlock → t.y.ivs.valid = false ∧ t.y.frq.valid = false)

/-- R129, R130: when the k-th request is the first answered by no byte, exactly k requests are issued, with the trigger
bytes due before them and no other, and the result is `Failed` with the stage of the k-th request and its cause; no
output is readable. -/
def Obligations.AbortedCycle : Prop :=
  ∀ (v : Variant) (bs : List Byte) (bad : RxAnswer) (c : Cause) (rest : List RxAnswer) (s : State),
    bs.length < frameLength v → answerCause bad = some c → s.ReadyFor v (bs.map .byte ++ [bad]) rest →
    ∃ n t, n ≤ 24 ∧ core.run n s = .next t ∧ t.st = .idle ∧ t.kind = .failed
      ∧ t.stage = stageOfRequest (bs.length + 1) ∧ t.cause = some c
      ∧ t.events = s.events ++ cycleEvents v (bs.map .byte ++ [bad])
          ++ [.result (.failed (stageOfRequest (bs.length + 1)) c)]
      ∧ t.rx = rest ∧ t.rxCount = s.rxCount + bs.length + 1
      ∧ (∀ r, t.x.valid r = false) ∧ ∀ r, (t.y.get r).valid = false
end

