-- ==== Sys2Proof/Laws/Files.lean ====
section
/-! SUPPORT. The register files: reading after writing, reading after invalidating, and the uniform view of the eleven raw
registers. -/

namespace Sys2Proof.Machine

@[simp] theorem Reg.written_bits {w : Nat} (v : BitVec w) : (Reg.written v).bits = v := rfl
@[simp] theorem Reg.written_valid {w : Nat} (v : BitVec w) : (Reg.written v).valid = true := rfl
@[simp] theorem Reg.invalidate_valid {w : Nat} (r : Reg w) : r.invalidate.valid = false := rfl
@[simp] theorem Reg.invalidate_bits {w : Nat} (r : Reg w) : r.invalidate.bits = r.bits := rfl

section
variable (f : RawFile) (g : OutFile)

@[simp] theorem RawFile.getI16_setI16 (r r' : I16Reg) (v : Reg 16) :
    (f.setI16 r v).getI16 r' = if r' = r then v else f.getI16 r' := by
  cases r <;> cases r' <;> rfl

@[simp] theorem RawFile.getI16_setU16 (r : U16Reg) (r' : I16Reg) (v : Reg 16) :
    (f.setU16 r v).getI16 r' = f.getI16 r' := by
  cases r <;> cases r' <;> rfl

@[simp] theorem RawFile.getI16_setU8 (r : U8Reg) (r' : I16Reg) (v : Reg 8) :
    (f.setU8 r v).getI16 r' = f.getI16 r' := by
  cases r <;> cases r' <;> rfl

@[simp] theorem RawFile.getI16_invalidate (r : I16Reg) : f.invalidate.getI16 r = (f.getI16 r).invalidate := by
  cases r <;> rfl

@[simp] theorem RawFile.getU16_setI16 (r : I16Reg) (r' : U16Reg) (v : Reg 16) :
    (f.setI16 r v).getU16 r' = f.getU16 r' := by
  cases r <;> cases r' <;> rfl

@[simp] theorem RawFile.getU16_setU16 (r r' : U16Reg) (v : Reg 16) :
    (f.setU16 r v).getU16 r' = if r' = r then v else f.getU16 r' := by
  cases r <;> cases r' <;> rfl

@[simp] theorem RawFile.getU16_setU8 (r : U8Reg) (r' : U16Reg) (v : Reg 8) :
    (f.setU8 r v).getU16 r' = f.getU16 r' := by
  cases r <;> cases r' <;> rfl

@[simp] theorem RawFile.getU16_invalidate (r : U16Reg) : f.invalidate.getU16 r = (f.getU16 r).invalidate := by
  cases r <;> rfl

@[simp] theorem RawFile.getU8_setI16 (r : I16Reg) (r' : U8Reg) (v : Reg 16) :
    (f.setI16 r v).getU8 r' = f.getU8 r' := by
  cases r <;> cases r' <;> rfl

@[simp] theorem RawFile.getU8_setU16 (r : U16Reg) (r' : U8Reg) (v : Reg 16) :
    (f.setU16 r v).getU8 r' = f.getU8 r' := by
  cases r <;> cases r' <;> rfl

@[simp] theorem RawFile.getU8_setU8 (r r' : U8Reg) (v : Reg 8) :
    (f.setU8 r v).getU8 r' = if r' = r then v else f.getU8 r' := by
  cases r <;> cases r' <;> rfl

@[simp] theorem RawFile.getU8_invalidate (r : U8Reg) : f.invalidate.getU8 r = (f.getU8 r).invalidate := by
  cases r <;> rfl

@[simp] theorem OutFile.get_set (r r' : OutReg) (v : Reg 64) :
    (g.set r v).get r' = if r' = r then v else g.get r' := by
  cases r <;> cases r' <;> rfl

@[simp] theorem OutFile.get_invalidate (r : OutReg) : g.invalidate.get r = (g.get r).invalidate := by
  cases r <;> rfl

theorem RawFile.valid_setI16 (r : I16Reg) (r' : RawReg) (v : Reg 16) :
    (f.setI16 r v).valid r' = if r' = .i16 r then v.valid else f.valid r' := by
  rcases r' with r' | r' | r' <;> simp only [RawFile.valid, RawFile.getI16_setI16, RawFile.getU16_setI16,
    RawFile.getU8_setI16, RawReg.i16.injEq, reduceCtorEq, if_false]
  split <;> rfl

theorem RawFile.valid_setU16 (r : U16Reg) (r' : RawReg) (v : Reg 16) :
    (f.setU16 r v).valid r' = if r' = .u16 r then v.valid else f.valid r' := by
  rcases r' with r' | r' | r' <;> simp only [RawFile.valid, RawFile.getI16_setU16, RawFile.getU16_setU16,
    RawFile.getU8_setU16, RawReg.u16.injEq, reduceCtorEq, if_false]
  split <;> rfl

theorem RawFile.valid_setU8 (r : U8Reg) (r' : RawReg) (v : Reg 8) :
    (f.setU8 r v).valid r' = if r' = .u8 r then v.valid else f.valid r' := by
  rcases r' with r' | r' | r' <;> simp only [RawFile.valid, RawFile.getI16_setU8, RawFile.getU16_setU8,
    RawFile.getU8_setU8, RawReg.u8.injEq, reduceCtorEq, if_false]
  split <;> rfl

theorem RawFile.value_setI16 (r : I16Reg) (r' : RawReg) (v : Reg 16) :
    (f.setI16 r v).value r' = if r' = .i16 r then v.bits.toInt else f.value r' := by
  rcases r' with r' | r' | r' <;> simp only [RawFile.value, RawFile.getI16_setI16, RawFile.getU16_setI16,
    RawFile.getU8_setI16, RawReg.i16.injEq, reduceCtorEq, if_false]
  split <;> rfl

theorem RawFile.value_setU16 (r : U16Reg) (r' : RawReg) (v : Reg 16) :
    (f.setU16 r v).value r' = if r' = .u16 r then (v.bits.toNat : Int) else f.value r' := by
  rcases r' with r' | r' | r' <;> simp only [RawFile.value, RawFile.getI16_setU16, RawFile.getU16_setU16,
    RawFile.getU8_setU16, RawReg.u16.injEq, reduceCtorEq, if_false]
  split <;> rfl

theorem RawFile.value_setU8 (r : U8Reg) (r' : RawReg) (v : Reg 8) :
    (f.setU8 r v).value r' = if r' = .u8 r then (v.bits.toNat : Int) else f.value r' := by
  rcases r' with r' | r' | r' <;> simp only [RawFile.value, RawFile.getI16_setU8, RawFile.getU16_setU8,
    RawFile.getU8_setU8, RawReg.u8.injEq, reduceCtorEq, if_false]
  split <;> rfl

@[simp] theorem RawFile.valid_invalidate (r : RawReg) : f.invalidate.valid r = false := by
  rcases r with r | r | r <;> simp [RawFile.valid]

end

end Sys2Proof.Machine
end

