-- ==== Sys2Proof/Laws/State.lean ====
section
/-! SUPPORT. What each field is after each named update of the state: one lemma per field per update. -/

namespace Sys2Proof.Machine

section
variable (s : State)

/-! ### writeI16 -/

@[simp] theorem State.writeI16_st (r : I16Reg) (v : RawWord) : (s.writeI16 r v).st = s.st := rfl
@[simp] theorem State.writeI16_upc (r : I16Reg) (v : RawWord) : (s.writeI16 r v).upc = s.upc := rfl
@[simp] theorem State.writeI16_var (r : I16Reg) (v : RawWord) : (s.writeI16 r v).var = s.var := rfl
@[simp] theorem State.writeI16_x (r : I16Reg) (v : RawWord) : (s.writeI16 r v).x = s.x.setI16 r (.written v) := rfl
@[simp] theorem State.writeI16_wh (r : I16Reg) (v : RawWord) : (s.writeI16 r v).wh = s.wh := rfl
@[simp] theorem State.writeI16_whv (r : I16Reg) (v : RawWord) : (s.writeI16 r v).whv = s.whv := rfl
@[simp] theorem State.writeI16_y (r : I16Reg) (v : RawWord) : (s.writeI16 r v).y = s.y := rfl
@[simp] theorem State.writeI16_kind (r : I16Reg) (v : RawWord) : (s.writeI16 r v).kind = s.kind := rfl
@[simp] theorem State.writeI16_stage (r : I16Reg) (v : RawWord) : (s.writeI16 r v).stage = s.stage := rfl
@[simp] theorem State.writeI16_cause (r : I16Reg) (v : RawWord) : (s.writeI16 r v).cause = s.cause := rfl
@[simp] theorem State.writeI16_dz (r : I16Reg) (v : RawWord) : (s.writeI16 r v).dz = s.dz := rfl
@[simp] theorem State.writeI16_cfgVariant (r : I16Reg) (v : RawWord) : (s.writeI16 r v).cfgVariant = s.cfgVariant := rfl
@[simp] theorem State.writeI16_cfgWritten (r : I16Reg) (v : RawWord) : (s.writeI16 r v).cfgWritten = s.cfgWritten := rfl
@[simp] theorem State.writeI16_rx (r : I16Reg) (v : RawWord) : (s.writeI16 r v).rx = s.rx := rfl
@[simp] theorem State.writeI16_rxCount (r : I16Reg) (v : RawWord) : (s.writeI16 r v).rxCount = s.rxCount := rfl
@[simp] theorem State.writeI16_events (r : I16Reg) (v : RawWord) : (s.writeI16 r v).events = s.events := rfl
@[simp] theorem State.writeI16_readData (r : I16Reg) (v : RawWord) : (s.writeI16 r v).readData = s.readData := rfl
@[simp] theorem State.writeI16_turns (r : I16Reg) (v : RawWord) : (s.writeI16 r v).turns = s.turns := rfl

/-! ### writeU16 -/

@[simp] theorem State.writeU16_st (r : U16Reg) (v : RawWord) : (s.writeU16 r v).st = s.st := rfl
@[simp] theorem State.writeU16_upc (r : U16Reg) (v : RawWord) : (s.writeU16 r v).upc = s.upc := rfl
@[simp] theorem State.writeU16_var (r : U16Reg) (v : RawWord) : (s.writeU16 r v).var = s.var := rfl
@[simp] theorem State.writeU16_x (r : U16Reg) (v : RawWord) : (s.writeU16 r v).x = s.x.setU16 r (.written v) := rfl
@[simp] theorem State.writeU16_wh (r : U16Reg) (v : RawWord) : (s.writeU16 r v).wh = s.wh := rfl
@[simp] theorem State.writeU16_whv (r : U16Reg) (v : RawWord) : (s.writeU16 r v).whv = s.whv := rfl
@[simp] theorem State.writeU16_y (r : U16Reg) (v : RawWord) : (s.writeU16 r v).y = s.y := rfl
@[simp] theorem State.writeU16_kind (r : U16Reg) (v : RawWord) : (s.writeU16 r v).kind = s.kind := rfl
@[simp] theorem State.writeU16_stage (r : U16Reg) (v : RawWord) : (s.writeU16 r v).stage = s.stage := rfl
@[simp] theorem State.writeU16_cause (r : U16Reg) (v : RawWord) : (s.writeU16 r v).cause = s.cause := rfl
@[simp] theorem State.writeU16_dz (r : U16Reg) (v : RawWord) : (s.writeU16 r v).dz = s.dz := rfl
@[simp] theorem State.writeU16_cfgVariant (r : U16Reg) (v : RawWord) : (s.writeU16 r v).cfgVariant = s.cfgVariant := rfl
@[simp] theorem State.writeU16_cfgWritten (r : U16Reg) (v : RawWord) : (s.writeU16 r v).cfgWritten = s.cfgWritten := rfl
@[simp] theorem State.writeU16_rx (r : U16Reg) (v : RawWord) : (s.writeU16 r v).rx = s.rx := rfl
@[simp] theorem State.writeU16_rxCount (r : U16Reg) (v : RawWord) : (s.writeU16 r v).rxCount = s.rxCount := rfl
@[simp] theorem State.writeU16_events (r : U16Reg) (v : RawWord) : (s.writeU16 r v).events = s.events := rfl
@[simp] theorem State.writeU16_readData (r : U16Reg) (v : RawWord) : (s.writeU16 r v).readData = s.readData := rfl
@[simp] theorem State.writeU16_turns (r : U16Reg) (v : RawWord) : (s.writeU16 r v).turns = s.turns := rfl

/-! ### writeU8 -/

@[simp] theorem State.writeU8_st (r : U8Reg) (v : Byte) : (s.writeU8 r v).st = s.st := rfl
@[simp] theorem State.writeU8_upc (r : U8Reg) (v : Byte) : (s.writeU8 r v).upc = s.upc := rfl
@[simp] theorem State.writeU8_var (r : U8Reg) (v : Byte) : (s.writeU8 r v).var = s.var := rfl
@[simp] theorem State.writeU8_x (r : U8Reg) (v : Byte) : (s.writeU8 r v).x = s.x.setU8 r (.written v) := rfl
@[simp] theorem State.writeU8_wh (r : U8Reg) (v : Byte) : (s.writeU8 r v).wh = s.wh := rfl
@[simp] theorem State.writeU8_whv (r : U8Reg) (v : Byte) : (s.writeU8 r v).whv = s.whv := rfl
@[simp] theorem State.writeU8_y (r : U8Reg) (v : Byte) : (s.writeU8 r v).y = s.y := rfl
@[simp] theorem State.writeU8_kind (r : U8Reg) (v : Byte) : (s.writeU8 r v).kind = s.kind := rfl
@[simp] theorem State.writeU8_stage (r : U8Reg) (v : Byte) : (s.writeU8 r v).stage = s.stage := rfl
@[simp] theorem State.writeU8_cause (r : U8Reg) (v : Byte) : (s.writeU8 r v).cause = s.cause := rfl
@[simp] theorem State.writeU8_dz (r : U8Reg) (v : Byte) : (s.writeU8 r v).dz = s.dz := rfl
@[simp] theorem State.writeU8_cfgVariant (r : U8Reg) (v : Byte) : (s.writeU8 r v).cfgVariant = s.cfgVariant := rfl
@[simp] theorem State.writeU8_cfgWritten (r : U8Reg) (v : Byte) : (s.writeU8 r v).cfgWritten = s.cfgWritten := rfl
@[simp] theorem State.writeU8_rx (r : U8Reg) (v : Byte) : (s.writeU8 r v).rx = s.rx := rfl
@[simp] theorem State.writeU8_rxCount (r : U8Reg) (v : Byte) : (s.writeU8 r v).rxCount = s.rxCount := rfl
@[simp] theorem State.writeU8_events (r : U8Reg) (v : Byte) : (s.writeU8 r v).events = s.events := rfl
@[simp] theorem State.writeU8_readData (r : U8Reg) (v : Byte) : (s.writeU8 r v).readData = s.readData := rfl
@[simp] theorem State.writeU8_turns (r : U8Reg) (v : Byte) : (s.writeU8 r v).turns = s.turns := rfl

/-! ### writeOut -/

@[simp] theorem State.writeOut_st (r : OutReg) (v : Pattern) : (s.writeOut r v).st = s.st := rfl
@[simp] theorem State.writeOut_upc (r : OutReg) (v : Pattern) : (s.writeOut r v).upc = s.upc := rfl
@[simp] theorem State.writeOut_var (r : OutReg) (v : Pattern) : (s.writeOut r v).var = s.var := rfl
@[simp] theorem State.writeOut_x (r : OutReg) (v : Pattern) : (s.writeOut r v).x = s.x := rfl
@[simp] theorem State.writeOut_wh (r : OutReg) (v : Pattern) : (s.writeOut r v).wh = s.wh := rfl
@[simp] theorem State.writeOut_whv (r : OutReg) (v : Pattern) : (s.writeOut r v).whv = s.whv := rfl
@[simp] theorem State.writeOut_y (r : OutReg) (v : Pattern) : (s.writeOut r v).y = s.y.set r (.written v) := rfl
@[simp] theorem State.writeOut_kind (r : OutReg) (v : Pattern) : (s.writeOut r v).kind = s.kind := rfl
@[simp] theorem State.writeOut_stage (r : OutReg) (v : Pattern) : (s.writeOut r v).stage = s.stage := rfl
@[simp] theorem State.writeOut_cause (r : OutReg) (v : Pattern) : (s.writeOut r v).cause = s.cause := rfl
@[simp] theorem State.writeOut_dz (r : OutReg) (v : Pattern) : (s.writeOut r v).dz = s.dz := rfl
@[simp] theorem State.writeOut_cfgVariant (r : OutReg) (v : Pattern) : (s.writeOut r v).cfgVariant = s.cfgVariant := rfl
@[simp] theorem State.writeOut_cfgWritten (r : OutReg) (v : Pattern) : (s.writeOut r v).cfgWritten = s.cfgWritten := rfl
@[simp] theorem State.writeOut_rx (r : OutReg) (v : Pattern) : (s.writeOut r v).rx = s.rx := rfl
@[simp] theorem State.writeOut_rxCount (r : OutReg) (v : Pattern) : (s.writeOut r v).rxCount = s.rxCount := rfl
@[simp] theorem State.writeOut_events (r : OutReg) (v : Pattern) : (s.writeOut r v).events = s.events := rfl
@[simp] theorem State.writeOut_readData (r : OutReg) (v : Pattern) : (s.writeOut r v).readData = s.readData := rfl
@[simp] theorem State.writeOut_turns (r : OutReg) (v : Pattern) : (s.writeOut r v).turns = s.turns := rfl

/-! ### advance -/

@[simp] theorem State.advance_st : (s.advance).st = s.st := rfl
@[simp] theorem State.advance_upc : (s.advance).upc = s.upc + 1 := rfl
@[simp] theorem State.advance_var : (s.advance).var = s.var := rfl
@[simp] theorem State.advance_x : (s.advance).x = s.x := rfl
@[simp] theorem State.advance_wh : (s.advance).wh = s.wh := rfl
@[simp] theorem State.advance_whv : (s.advance).whv = s.whv := rfl
@[simp] theorem State.advance_y : (s.advance).y = s.y := rfl
@[simp] theorem State.advance_kind : (s.advance).kind = s.kind := rfl
@[simp] theorem State.advance_stage : (s.advance).stage = s.stage := rfl
@[simp] theorem State.advance_cause : (s.advance).cause = s.cause := rfl
@[simp] theorem State.advance_dz : (s.advance).dz = s.dz := rfl
@[simp] theorem State.advance_cfgVariant : (s.advance).cfgVariant = s.cfgVariant := rfl
@[simp] theorem State.advance_cfgWritten : (s.advance).cfgWritten = s.cfgWritten := rfl
@[simp] theorem State.advance_rx : (s.advance).rx = s.rx := rfl
@[simp] theorem State.advance_rxCount : (s.advance).rxCount = s.rxCount := rfl
@[simp] theorem State.advance_events : (s.advance).events = s.events := rfl
@[simp] theorem State.advance_readData : (s.advance).readData = s.readData := rfl
@[simp] theorem State.advance_turns : (s.advance).turns = s.turns := rfl

/-! ### raiseDz -/

@[simp] theorem State.raiseDz_st : (s.raiseDz).st = s.st := rfl
@[simp] theorem State.raiseDz_upc : (s.raiseDz).upc = s.upc := rfl
@[simp] theorem State.raiseDz_var : (s.raiseDz).var = s.var := rfl
@[simp] theorem State.raiseDz_x : (s.raiseDz).x = s.x := rfl
@[simp] theorem State.raiseDz_wh : (s.raiseDz).wh = s.wh := rfl
@[simp] theorem State.raiseDz_whv : (s.raiseDz).whv = s.whv := rfl
@[simp] theorem State.raiseDz_y : (s.raiseDz).y = s.y := rfl
@[simp] theorem State.raiseDz_kind : (s.raiseDz).kind = s.kind := rfl
@[simp] theorem State.raiseDz_stage : (s.raiseDz).stage = s.stage := rfl
@[simp] theorem State.raiseDz_cause : (s.raiseDz).cause = s.cause := rfl
@[simp] theorem State.raiseDz_dz : (s.raiseDz).dz = true := rfl
@[simp] theorem State.raiseDz_cfgVariant : (s.raiseDz).cfgVariant = s.cfgVariant := rfl
@[simp] theorem State.raiseDz_cfgWritten : (s.raiseDz).cfgWritten = s.cfgWritten := rfl
@[simp] theorem State.raiseDz_rx : (s.raiseDz).rx = s.rx := rfl
@[simp] theorem State.raiseDz_rxCount : (s.raiseDz).rxCount = s.rxCount := rfl
@[simp] theorem State.raiseDz_events : (s.raiseDz).events = s.events := rfl
@[simp] theorem State.raiseDz_readData : (s.raiseDz).readData = s.readData := rfl
@[simp] theorem State.raiseDz_turns : (s.raiseDz).turns = s.turns := rfl

/-! ### emit -/

@[simp] theorem State.emit_st (e : Event) : (s.emit e).st = s.st := rfl
@[simp] theorem State.emit_upc (e : Event) : (s.emit e).upc = s.upc := rfl
@[simp] theorem State.emit_var (e : Event) : (s.emit e).var = s.var := rfl
@[simp] theorem State.emit_x (e : Event) : (s.emit e).x = s.x := rfl
@[simp] theorem State.emit_wh (e : Event) : (s.emit e).wh = s.wh := rfl
@[simp] theorem State.emit_whv (e : Event) : (s.emit e).whv = s.whv := rfl
@[simp] theorem State.emit_y (e : Event) : (s.emit e).y = s.y := rfl
@[simp] theorem State.emit_kind (e : Event) : (s.emit e).kind = s.kind := rfl
@[simp] theorem State.emit_stage (e : Event) : (s.emit e).stage = s.stage := rfl
@[simp] theorem State.emit_cause (e : Event) : (s.emit e).cause = s.cause := rfl
@[simp] theorem State.emit_dz (e : Event) : (s.emit e).dz = s.dz := rfl
@[simp] theorem State.emit_cfgVariant (e : Event) : (s.emit e).cfgVariant = s.cfgVariant := rfl
@[simp] theorem State.emit_cfgWritten (e : Event) : (s.emit e).cfgWritten = s.cfgWritten := rfl
@[simp] theorem State.emit_rx (e : Event) : (s.emit e).rx = s.rx := rfl
@[simp] theorem State.emit_rxCount (e : Event) : (s.emit e).rxCount = s.rxCount := rfl
@[simp] theorem State.emit_events (e : Event) : (s.emit e).events = s.events ++ [e] := rfl
@[simp] theorem State.emit_readData (e : Event) : (s.emit e).readData = s.readData := rfl
@[simp] theorem State.emit_turns (e : Event) : (s.emit e).turns = s.turns := rfl

/-! ### txWrite -/

@[simp] theorem State.txWrite_st (b : Byte) : (s.txWrite b).st = s.st := rfl
@[simp] theorem State.txWrite_upc (b : Byte) : (s.txWrite b).upc = s.upc := rfl
@[simp] theorem State.txWrite_var (b : Byte) : (s.txWrite b).var = s.var := rfl
@[simp] theorem State.txWrite_x (b : Byte) : (s.txWrite b).x = s.x := rfl
@[simp] theorem State.txWrite_wh (b : Byte) : (s.txWrite b).wh = s.wh := rfl
@[simp] theorem State.txWrite_whv (b : Byte) : (s.txWrite b).whv = s.whv := rfl
@[simp] theorem State.txWrite_y (b : Byte) : (s.txWrite b).y = s.y := rfl
@[simp] theorem State.txWrite_kind (b : Byte) : (s.txWrite b).kind = s.kind := rfl
@[simp] theorem State.txWrite_stage (b : Byte) : (s.txWrite b).stage = s.stage := rfl
@[simp] theorem State.txWrite_cause (b : Byte) : (s.txWrite b).cause = s.cause := rfl
@[simp] theorem State.txWrite_dz (b : Byte) : (s.txWrite b).dz = s.dz := rfl
@[simp] theorem State.txWrite_cfgVariant (b : Byte) : (s.txWrite b).cfgVariant = s.cfgVariant := rfl
@[simp] theorem State.txWrite_cfgWritten (b : Byte) : (s.txWrite b).cfgWritten = s.cfgWritten := rfl
@[simp] theorem State.txWrite_rx (b : Byte) : (s.txWrite b).rx = s.rx := rfl
@[simp] theorem State.txWrite_rxCount (b : Byte) : (s.txWrite b).rxCount = s.rxCount := rfl
@[simp] theorem State.txWrite_events (b : Byte) : (s.txWrite b).events = s.events ++ [.tx b] := rfl
@[simp] theorem State.txWrite_readData (b : Byte) : (s.txWrite b).readData = s.readData := rfl
@[simp] theorem State.txWrite_turns (b : Byte) : (s.txWrite b).turns = s.turns := rfl

/-! ### requestAnswered -/

@[simp] theorem State.requestAnswered_st : (s.requestAnswered).st = s.st := rfl
@[simp] theorem State.requestAnswered_upc : (s.requestAnswered).upc = s.upc := rfl
@[simp] theorem State.requestAnswered_var : (s.requestAnswered).var = s.var := rfl
@[simp] theorem State.requestAnswered_x : (s.requestAnswered).x = s.x := rfl
@[simp] theorem State.requestAnswered_wh : (s.requestAnswered).wh = s.wh := rfl
@[simp] theorem State.requestAnswered_whv : (s.requestAnswered).whv = s.whv := rfl
@[simp] theorem State.requestAnswered_y : (s.requestAnswered).y = s.y := rfl
@[simp] theorem State.requestAnswered_kind : (s.requestAnswered).kind = s.kind := rfl
@[simp] theorem State.requestAnswered_stage : (s.requestAnswered).stage = s.stage := rfl
@[simp] theorem State.requestAnswered_cause : (s.requestAnswered).cause = s.cause := rfl
@[simp] theorem State.requestAnswered_dz : (s.requestAnswered).dz = s.dz := rfl
@[simp] theorem State.requestAnswered_cfgVariant : (s.requestAnswered).cfgVariant = s.cfgVariant := rfl
@[simp] theorem State.requestAnswered_cfgWritten : (s.requestAnswered).cfgWritten = s.cfgWritten := rfl
@[simp] theorem State.requestAnswered_rx : (s.requestAnswered).rx = s.rx.tail := rfl
@[simp] theorem State.requestAnswered_rxCount : (s.requestAnswered).rxCount = s.rxCount + 1 := rfl
@[simp] theorem State.requestAnswered_events : (s.requestAnswered).events = s.events ++ [.rx s.nextAnswer] := rfl
@[simp] theorem State.requestAnswered_readData : (s.requestAnswered).readData = s.readData := rfl
@[simp] theorem State.requestAnswered_turns : (s.requestAnswered).turns = s.turns := rfl

/-! ### latchHigh -/

@[simp] theorem State.latchHigh_st (b : Byte) : (s.latchHigh b).st = s.st := rfl
@[simp] theorem State.latchHigh_upc (b : Byte) : (s.latchHigh b).upc = s.upc := rfl
@[simp] theorem State.latchHigh_var (b : Byte) : (s.latchHigh b).var = s.var := rfl
@[simp] theorem State.latchHigh_x (b : Byte) : (s.latchHigh b).x = s.x := rfl
@[simp] theorem State.latchHigh_wh (b : Byte) : (s.latchHigh b).wh = b := rfl
@[simp] theorem State.latchHigh_whv (b : Byte) : (s.latchHigh b).whv = true := rfl
@[simp] theorem State.latchHigh_y (b : Byte) : (s.latchHigh b).y = s.y := rfl
@[simp] theorem State.latchHigh_kind (b : Byte) : (s.latchHigh b).kind = s.kind := rfl
@[simp] theorem State.latchHigh_stage (b : Byte) : (s.latchHigh b).stage = s.stage := rfl
@[simp] theorem State.latchHigh_cause (b : Byte) : (s.latchHigh b).cause = s.cause := rfl
@[simp] theorem State.latchHigh_dz (b : Byte) : (s.latchHigh b).dz = s.dz := rfl
@[simp] theorem State.latchHigh_cfgVariant (b : Byte) : (s.latchHigh b).cfgVariant = s.cfgVariant := rfl
@[simp] theorem State.latchHigh_cfgWritten (b : Byte) : (s.latchHigh b).cfgWritten = s.cfgWritten := rfl
@[simp] theorem State.latchHigh_rx (b : Byte) : (s.latchHigh b).rx = s.rx := rfl
@[simp] theorem State.latchHigh_rxCount (b : Byte) : (s.latchHigh b).rxCount = s.rxCount := rfl
@[simp] theorem State.latchHigh_events (b : Byte) : (s.latchHigh b).events = s.events := rfl
@[simp] theorem State.latchHigh_readData (b : Byte) : (s.latchHigh b).readData = s.readData := rfl
@[simp] theorem State.latchHigh_turns (b : Byte) : (s.latchHigh b).turns = s.turns := rfl

/-! ### releaseHigh -/

@[simp] theorem State.releaseHigh_st : (s.releaseHigh).st = s.st := rfl
@[simp] theorem State.releaseHigh_upc : (s.releaseHigh).upc = s.upc := rfl
@[simp] theorem State.releaseHigh_var : (s.releaseHigh).var = s.var := rfl
@[simp] theorem State.releaseHigh_x : (s.releaseHigh).x = s.x := rfl
@[simp] theorem State.releaseHigh_wh : (s.releaseHigh).wh = s.wh := rfl
@[simp] theorem State.releaseHigh_whv : (s.releaseHigh).whv = false := rfl
@[simp] theorem State.releaseHigh_y : (s.releaseHigh).y = s.y := rfl
@[simp] theorem State.releaseHigh_kind : (s.releaseHigh).kind = s.kind := rfl
@[simp] theorem State.releaseHigh_stage : (s.releaseHigh).stage = s.stage := rfl
@[simp] theorem State.releaseHigh_cause : (s.releaseHigh).cause = s.cause := rfl
@[simp] theorem State.releaseHigh_dz : (s.releaseHigh).dz = s.dz := rfl
@[simp] theorem State.releaseHigh_cfgVariant : (s.releaseHigh).cfgVariant = s.cfgVariant := rfl
@[simp] theorem State.releaseHigh_cfgWritten : (s.releaseHigh).cfgWritten = s.cfgWritten := rfl
@[simp] theorem State.releaseHigh_rx : (s.releaseHigh).rx = s.rx := rfl
@[simp] theorem State.releaseHigh_rxCount : (s.releaseHigh).rxCount = s.rxCount := rfl
@[simp] theorem State.releaseHigh_events : (s.releaseHigh).events = s.events := rfl
@[simp] theorem State.releaseHigh_readData : (s.releaseHigh).readData = s.readData := rfl
@[simp] theorem State.releaseHigh_turns : (s.releaseHigh).turns = s.turns := rfl

/-! ### beginCycle -/

@[simp] theorem State.beginCycle_st : (s.beginCycle).st = .awaitingBytes := rfl
@[simp] theorem State.beginCycle_upc : (s.beginCycle).upc = entryAddress s.cfgVariant := rfl
@[simp] theorem State.beginCycle_var : (s.beginCycle).var = s.cfgVariant := rfl
@[simp] theorem State.beginCycle_x : (s.beginCycle).x = s.x.invalidate := rfl
@[simp] theorem State.beginCycle_wh : (s.beginCycle).wh = s.wh := rfl
@[simp] theorem State.beginCycle_whv : (s.beginCycle).whv = false := rfl
@[simp] theorem State.beginCycle_y : (s.beginCycle).y = s.y.invalidate := rfl
@[simp] theorem State.beginCycle_kind : (s.beginCycle).kind = .none := rfl
@[simp] theorem State.beginCycle_stage : (s.beginCycle).stage = .accel := rfl
@[simp] theorem State.beginCycle_cause : (s.beginCycle).cause = none := rfl
@[simp] theorem State.beginCycle_dz : (s.beginCycle).dz = false := rfl
@[simp] theorem State.beginCycle_cfgVariant : (s.beginCycle).cfgVariant = s.cfgVariant := rfl
@[simp] theorem State.beginCycle_cfgWritten : (s.beginCycle).cfgWritten = s.cfgWritten := rfl
@[simp] theorem State.beginCycle_rx : (s.beginCycle).rx = s.rx := rfl
@[simp] theorem State.beginCycle_rxCount : (s.beginCycle).rxCount = s.rxCount := rfl
@[simp] theorem State.beginCycle_events : (s.beginCycle).events = s.events := rfl
@[simp] theorem State.beginCycle_readData : (s.beginCycle).readData = s.readData := rfl
@[simp] theorem State.beginCycle_turns : (s.beginCycle).turns = s.turns := rfl

/-! ### abort -/

@[simp] theorem State.abort_st (g : Stage) (c : Cause) : (s.abort g c).st = .idle := rfl
@[simp] theorem State.abort_upc (g : Stage) (c : Cause) : (s.abort g c).upc = s.upc := rfl
@[simp] theorem State.abort_var (g : Stage) (c : Cause) : (s.abort g c).var = s.var := rfl
@[simp] theorem State.abort_x (g : Stage) (c : Cause) : (s.abort g c).x = s.x.invalidate := rfl
@[simp] theorem State.abort_wh (g : Stage) (c : Cause) : (s.abort g c).wh = s.wh := rfl
@[simp] theorem State.abort_whv (g : Stage) (c : Cause) : (s.abort g c).whv = false := rfl
@[simp] theorem State.abort_y (g : Stage) (c : Cause) : (s.abort g c).y = s.y.invalidate := rfl
@[simp] theorem State.abort_kind (g : Stage) (c : Cause) : (s.abort g c).kind = .failed := rfl
@[simp] theorem State.abort_stage (g : Stage) (c : Cause) : (s.abort g c).stage = g := rfl
@[simp] theorem State.abort_cause (g : Stage) (c : Cause) : (s.abort g c).cause = some c := rfl
@[simp] theorem State.abort_dz (g : Stage) (c : Cause) : (s.abort g c).dz = s.dz := rfl
@[simp] theorem State.abort_cfgVariant (g : Stage) (c : Cause) : (s.abort g c).cfgVariant = s.cfgVariant := rfl
@[simp] theorem State.abort_cfgWritten (g : Stage) (c : Cause) : (s.abort g c).cfgWritten = s.cfgWritten := rfl
@[simp] theorem State.abort_rx (g : Stage) (c : Cause) : (s.abort g c).rx = s.rx := rfl
@[simp] theorem State.abort_rxCount (g : Stage) (c : Cause) : (s.abort g c).rxCount = s.rxCount := rfl
@[simp] theorem State.abort_events (g : Stage) (c : Cause) : (s.abort g c).events = s.events ++ [.result (.failed g c)] := rfl
@[simp] theorem State.abort_readData (g : Stage) (c : Cause) : (s.abort g c).readData = s.readData := rfl
@[simp] theorem State.abort_turns (g : Stage) (c : Cause) : (s.abort g c).turns = s.turns := rfl

/-! ### finish -/

@[simp] theorem State.finish_st : (s.finish).st = .idle := rfl
@[simp] theorem State.finish_upc : (s.finish).upc = s.upc := rfl
@[simp] theorem State.finish_var : (s.finish).var = s.var := rfl
@[simp] theorem State.finish_x : (s.finish).x = s.x := rfl
@[simp] theorem State.finish_wh : (s.finish).wh = s.wh := rfl
@[simp] theorem State.finish_whv : (s.finish).whv = s.whv := rfl
@[simp] theorem State.finish_y : (s.finish).y = s.y := rfl
@[simp] theorem State.finish_kind : (s.finish).kind = .ok := rfl
@[simp] theorem State.finish_stage : (s.finish).stage = s.stage := rfl
@[simp] theorem State.finish_cause : (s.finish).cause = s.cause := rfl
@[simp] theorem State.finish_dz : (s.finish).dz = s.dz := rfl
@[simp] theorem State.finish_cfgVariant : (s.finish).cfgVariant = s.cfgVariant := rfl
@[simp] theorem State.finish_cfgWritten : (s.finish).cfgWritten = s.cfgWritten := rfl
@[simp] theorem State.finish_rx : (s.finish).rx = s.rx := rfl
@[simp] theorem State.finish_rxCount : (s.finish).rxCount = s.rxCount := rfl
@[simp] theorem State.finish_events : (s.finish).events = s.events ++ [.result .ok] := rfl
@[simp] theorem State.finish_readData : (s.finish).readData = s.readData := rfl
@[simp] theorem State.finish_turns : (s.finish).turns = s.turns := rfl

/-! ### resetBlock -/

@[simp] theorem State.resetBlock_st : (s.resetBlock).st = State.reset.st := rfl
@[simp] theorem State.resetBlock_upc : (s.resetBlock).upc = State.reset.upc := rfl
@[simp] theorem State.resetBlock_var : (s.resetBlock).var = State.reset.var := rfl
@[simp] theorem State.resetBlock_x : (s.resetBlock).x = State.reset.x := rfl
@[simp] theorem State.resetBlock_wh : (s.resetBlock).wh = State.reset.wh := rfl
@[simp] theorem State.resetBlock_whv : (s.resetBlock).whv = State.reset.whv := rfl
@[simp] theorem State.resetBlock_y : (s.resetBlock).y = State.reset.y := rfl
@[simp] theorem State.resetBlock_kind : (s.resetBlock).kind = State.reset.kind := rfl
@[simp] theorem State.resetBlock_stage : (s.resetBlock).stage = State.reset.stage := rfl
@[simp] theorem State.resetBlock_cause : (s.resetBlock).cause = State.reset.cause := rfl
@[simp] theorem State.resetBlock_dz : (s.resetBlock).dz = State.reset.dz := rfl
@[simp] theorem State.resetBlock_cfgVariant : (s.resetBlock).cfgVariant = State.reset.cfgVariant := rfl
@[simp] theorem State.resetBlock_cfgWritten : (s.resetBlock).cfgWritten = State.reset.cfgWritten := rfl
@[simp] theorem State.resetBlock_rx : (s.resetBlock).rx = s.rx := rfl
@[simp] theorem State.resetBlock_rxCount : (s.resetBlock).rxCount = s.rxCount := rfl
@[simp] theorem State.resetBlock_events : (s.resetBlock).events = s.events := rfl
@[simp] theorem State.resetBlock_readData : (s.resetBlock).readData = s.readData := rfl
@[simp] theorem State.resetBlock_turns : (s.resetBlock).turns = s.turns := rfl

/-! ### turnTaken -/

@[simp] theorem State.turnTaken_st : (s.turnTaken).st = s.st := rfl
@[simp] theorem State.turnTaken_upc : (s.turnTaken).upc = s.upc := rfl
@[simp] theorem State.turnTaken_var : (s.turnTaken).var = s.var := rfl
@[simp] theorem State.turnTaken_x : (s.turnTaken).x = s.x := rfl
@[simp] theorem State.turnTaken_wh : (s.turnTaken).wh = s.wh := rfl
@[simp] theorem State.turnTaken_whv : (s.turnTaken).whv = s.whv := rfl
@[simp] theorem State.turnTaken_y : (s.turnTaken).y = s.y := rfl
@[simp] theorem State.turnTaken_kind : (s.turnTaken).kind = s.kind := rfl
@[simp] theorem State.turnTaken_stage : (s.turnTaken).stage = s.stage := rfl
@[simp] theorem State.turnTaken_cause : (s.turnTaken).cause = s.cause := rfl
@[simp] theorem State.turnTaken_dz : (s.turnTaken).dz = s.dz := rfl
@[simp] theorem State.turnTaken_cfgVariant : (s.turnTaken).cfgVariant = s.cfgVariant := rfl
@[simp] theorem State.turnTaken_cfgWritten : (s.turnTaken).cfgWritten = s.cfgWritten := rfl
@[simp] theorem State.turnTaken_rx : (s.turnTaken).rx = s.rx := rfl
@[simp] theorem State.turnTaken_rxCount : (s.turnTaken).rxCount = s.rxCount := rfl
@[simp] theorem State.turnTaken_events : (s.turnTaken).events = s.events := rfl
@[simp] theorem State.turnTaken_readData : (s.turnTaken).readData = s.readData := rfl
@[simp] theorem State.turnTaken_turns : (s.turnTaken).turns = s.turns.tail := rfl

/-! ### writeConfig -/

@[simp] theorem State.writeConfig_st (v : Byte) : (s.writeConfig v).st = s.st := rfl
@[simp] theorem State.writeConfig_upc (v : Byte) : (s.writeConfig v).upc = s.upc := rfl
@[simp] theorem State.writeConfig_var (v : Byte) : (s.writeConfig v).var = s.var := rfl
@[simp] theorem State.writeConfig_x (v : Byte) : (s.writeConfig v).x = s.x := rfl
@[simp] theorem State.writeConfig_wh (v : Byte) : (s.writeConfig v).wh = s.wh := rfl
@[simp] theorem State.writeConfig_whv (v : Byte) : (s.writeConfig v).whv = s.whv := rfl
@[simp] theorem State.writeConfig_y (v : Byte) : (s.writeConfig v).y = s.y := rfl
@[simp] theorem State.writeConfig_kind (v : Byte) : (s.writeConfig v).kind = s.kind := rfl
@[simp] theorem State.writeConfig_stage (v : Byte) : (s.writeConfig v).stage = s.stage := rfl
@[simp] theorem State.writeConfig_cause (v : Byte) : (s.writeConfig v).cause = s.cause := rfl
@[simp] theorem State.writeConfig_dz (v : Byte) : (s.writeConfig v).dz = s.dz := rfl
@[simp] theorem State.writeConfig_cfgVariant (v : Byte) : (s.writeConfig v).cfgVariant = .ofBit v[0] := rfl
@[simp] theorem State.writeConfig_cfgWritten (v : Byte) : (s.writeConfig v).cfgWritten = true := rfl
@[simp] theorem State.writeConfig_rx (v : Byte) : (s.writeConfig v).rx = s.rx := rfl
@[simp] theorem State.writeConfig_rxCount (v : Byte) : (s.writeConfig v).rxCount = s.rxCount := rfl
@[simp] theorem State.writeConfig_events (v : Byte) : (s.writeConfig v).events = s.events := rfl
@[simp] theorem State.writeConfig_readData (v : Byte) : (s.writeConfig v).readData = s.readData := rfl
@[simp] theorem State.writeConfig_turns (v : Byte) : (s.writeConfig v).turns = s.turns := rfl

end

end Sys2Proof.Machine
end

