-- ==== Sys2Proof/Laws/Ops.lean ====
section
/-! SUPPORT. What each shared operation can do, said once: guarded execution, register operands, the receive primitives. -/

namespace Sys2Proof.Machine

section
variable {s t : State}

theorem State.inCycle_awaiting {o : Host.Outcome State Fault Refusal} (h : s.st = .awaitingBytes) :
    s.inCycle o = o := by simp [State.inCycle, h]

theorem State.inCycle_idle {o : Host.Outcome State Fault Refusal} (h : s.st = .idle) :
    s.inCycle o = .refused .sequencerIdle := by simp [State.inCycle, h]

theorem State.inCycle_next {o : Host.Outcome State Fault Refusal} :
    s.inCycle o = .next t ↔ s.st = .awaitingBytes ∧ o = .next t := by
  cases h : s.st <;> simp [State.inCycle, h]

theorem State.withI16_next {r : I16Reg} {k : Int → Host.Outcome State Fault Refusal} :
    s.withI16 r k = .next t ↔ (s.x.getI16 r).valid = true ∧ k (s.x.getI16 r).bits.toInt = .next t := by
  cases h : (s.x.getI16 r).valid <;> simp [State.withI16, h]

theorem State.withU16_next {r : U16Reg} {k : Nat → Host.Outcome State Fault Refusal} :
    s.withU16 r k = .next t ↔ (s.x.getU16 r).valid = true ∧ k (s.x.getU16 r).bits.toNat = .next t := by
  cases h : (s.x.getU16 r).valid <;> simp [State.withU16, h]

theorem State.withU8_next {r : U8Reg} {k : Nat → Host.Outcome State Fault Refusal} :
    s.withU8 r k = .next t ↔ (s.x.getU8 r).valid = true ∧ k (s.x.getU8 r).bits.toNat = .next t := by
  cases h : (s.x.getU8 r).valid <;> simp [State.withU8, h]

theorem State.withOut_next {r : OutReg} {k : Pattern → Host.Outcome State Fault Refusal} :
    s.withOut r k = .next t ↔ (s.y.get r).valid = true ∧ k (s.y.get r).bits = .next t := by
  cases h : (s.y.get r).valid <;> simp [State.withOut, h]

@[simp] theorem State.nextAnswer_latchHigh (b : Byte) : (s.latchHigh b).nextAnswer = s.nextAnswer := rfl

theorem State.nextAnswer_listed {a : RxAnswer} {as : List RxAnswer} (h : s.rx = a :: as) : s.nextAnswer = a := by
  simp [State.nextAnswer, h]

/-- An answer is a byte or has a cause. -/
theorem answer_cases (a : RxAnswer) : (∃ b, a = .byte b) ∨ ∃ c, answerCause a = some c := by
  cases a <;> simp [answerCause]

theorem State.readByte_byte {g : Stage} {k : Byte → State → State} {b : Byte} (h : s.nextAnswer = .byte b) :
    s.readByte g k = k b s.requestAnswered := by simp [State.readByte, h]

theorem State.readByte_abort {g : Stage} {k : Byte → State → State} {c : Cause} (h : answerCause s.nextAnswer = some c) :
    s.readByte g k = s.requestAnswered.abort g c := by
  unfold State.readByte
  cases ha : s.nextAnswer <;> simp_all [answerCause]

/-- Everything one receive request can do. -/
theorem State.readByte_cases (s : State) (g : Stage) (k : Byte → State → State) :
    (∃ b, s.nextAnswer = .byte b ∧ s.readByte g k = k b s.requestAnswered) ∨
    (∃ c, answerCause s.nextAnswer = some c ∧ s.readByte g k = s.requestAnswered.abort g c) := by
  rcases answer_cases s.nextAnswer with ⟨b, h⟩ | ⟨c, h⟩
  · exact .inl ⟨b, h, readByte_byte h⟩
  · exact .inr ⟨c, h, readByte_abort h⟩

theorem State.readWord_bytes {g : Stage} {k : RawWord → State → State} {b0 b1 : Byte}
    (h0 : s.nextAnswer = .byte b0) (h1 : s.requestAnswered.nextAnswer = .byte b1) :
    s.readWord g k = k (bigEndian b0 b1) (s.requestAnswered.latchHigh b0).requestAnswered.releaseHigh := by
  rw [State.readWord, readByte_byte h0, readByte_byte (by simpa using h1)]
  rfl

theorem State.readWord_abort_first {g : Stage} {k : RawWord → State → State} {c : Cause}
    (h : answerCause s.nextAnswer = some c) : s.readWord g k = s.requestAnswered.abort g c := by
  rw [State.readWord, readByte_abort h]

theorem State.readWord_abort_second {g : Stage} {k : RawWord → State → State} {b0 : Byte} {c : Cause}
    (h0 : s.nextAnswer = .byte b0) (h1 : answerCause s.requestAnswered.nextAnswer = some c) :
    s.readWord g k = (s.requestAnswered.latchHigh b0).requestAnswered.abort g c := by
  rw [State.readWord, readByte_byte h0, readByte_abort (by simpa using h1)]

/-- Everything the two receive requests of a 16-bit field can do. -/
theorem State.readWord_cases (s : State) (g : Stage) (k : RawWord → State → State) :
    (∃ b0 b1, s.nextAnswer = .byte b0 ∧ s.requestAnswered.nextAnswer = .byte b1 ∧
      s.readWord g k = k (bigEndian b0 b1) (s.requestAnswered.latchHigh b0).requestAnswered.releaseHigh) ∨
    (∃ c, answerCause s.nextAnswer = some c ∧ s.readWord g k = s.requestAnswered.abort g c) ∨
    (∃ b0 c, s.nextAnswer = .byte b0 ∧ answerCause s.requestAnswered.nextAnswer = some c ∧
      s.readWord g k = (s.requestAnswered.latchHigh b0).requestAnswered.abort g c) := by
  rcases answer_cases s.nextAnswer with ⟨b0, h0⟩ | ⟨c, h0⟩
  · rcases answer_cases s.requestAnswered.nextAnswer with ⟨b1, h1⟩ | ⟨c, h1⟩
    · exact .inl ⟨b0, b1, h0, h1, readWord_bytes h0 h1⟩
    · exact .inr (.inr ⟨b0, c, h0, h1, readWord_abort_second h0 h1⟩)
  · exact .inr (.inl ⟨c, h0, readWord_abort_first h0⟩)

@[simp] theorem bigEndian_toNat (b0 b1 : Byte) : (bigEndian b0 b1).toNat = b0.toNat * 256 + b1.toNat := by
  rw [bigEndian, BitVec.toNat_append, Nat.shiftLeft_eq, Nat.mul_comm, ← Nat.two_pow_add_eq_or_of_lt b1.isLt]

end

end Sys2Proof.Machine
end

