-- ==== Sys2Proof/Laws/Exec.lean ====
section
/-! SUPPORT. What each instruction does when it answers a next state, and when it does. -/

namespace Sys2Proof.Machine

section
variable {s t : State}

/-- Two next states are equal, with the known one on the right. -/
theorem next_eq_next {u : State} :
    (Host.Outcome.next u : Host.Outcome State Fault Refusal) = .next t ↔ t = u := by
  simp [eq_comm]

theorem execTxb_next {imm : Byte} : execTxb imm s = .next t ↔
    s.st = .awaitingBytes ∧ triggerBytes.contains imm = true ∧ t = (s.txWrite imm).advance := by
  simp only [execTxb, State.inCycle_next]
  split <;> simp_all [eq_comm]

theorem execRdu8_next {rd : U8Reg} : execRdu8 rd s = .next t ↔
    s.st = .awaitingBytes ∧ t = s.readByte (u8Stage rd) fun b u => (u.writeU8 rd b).advance := by
  simp only [execRdu8, State.inCycle_next, next_eq_next]

theorem execRdu16_next {rd : U16Reg} : execRdu16 rd s = .next t ↔
    s.st = .awaitingBytes ∧ t = s.readWord (u16Stage rd) fun w u => (u.writeU16 rd w).advance := by
  simp only [execRdu16, State.inCycle_next, next_eq_next]

theorem execRdi16_next {rd : I16Reg} : execRdi16 rd s = .next t ↔
    s.st = .awaitingBytes ∧ t = s.readWord (i16Stage rd) fun w u => (u.writeI16 rd w).advance := by
  simp only [execRdi16, State.inCycle_next, next_eq_next]

theorem execScacc_next {i : Axis} : execScacc i s = .next t ↔
    s.st = .awaitingBytes ∧ (s.x.getI16 (accSource i)).valid = true ∧
      t = (s.writeOut (accDest i)
        (scaleSigned (s.x.getI16 (accSource i)).bits.toInt accSignificand (2 ^ 59))).advance := by
  simp only [execScacc, State.inCycle_next, State.withI16_next, next_eq_next]

theorem execScgyr_next {i : Axis} : execScgyr i s = .next t ↔
    s.st = .awaitingBytes ∧ (s.x.getI16 (gyrSource i)).valid = true ∧
      t = (s.writeOut (gyrDest i)
        (scaleSigned (s.x.getI16 (gyrSource i)).bits.toInt gyrNumerator gyrDenominator)).advance := by
  simp only [execScgyr, State.inCycle_next, State.withI16_next, next_eq_next]

theorem execFxalt_next : execFxalt s = .next t ↔
    s.st = .awaitingBytes ∧ s.x.altc.valid = true ∧ s.x.altf.valid = true ∧
      t = (s.writeOut .alt (fixedPoint s.x.altc.bits.toNat s.x.altf.bits.toNat)).advance := by
  simp only [execFxalt, State.inCycle_next, State.withU16_next, State.withU8_next, RawFile.getU16, RawFile.getU8, next_eq_next]

theorem execFxtmp_next : execFxtmp s = .next t ↔
    s.st = .awaitingBytes ∧ s.x.tmpc.valid = true ∧ s.x.tmpf.valid = true ∧
      t = (s.writeOut .tmp (fixedPoint s.x.tmpc.bits.toNat s.x.tmpf.bits.toNat)).advance := by
  simp only [execFxtmp, State.inCycle_next, State.withU8_next, RawFile.getU8, next_eq_next]

theorem execIvsec_next : execIvsec s = .next t ↔
    s.st = .awaitingBytes ∧ s.x.ivt.valid = true ∧
      t = (s.writeOut .ivs (intervalSeconds s.x.ivt.bits.toNat)).advance := by
  simp only [execIvsec, State.inCycle_next, State.withU16_next, RawFile.getU16, next_eq_next]

theorem execFreq_next : execFreq s = .next t ↔
    s.st = .awaitingBytes ∧ s.x.ivt.valid = true ∧
      ((s.x.ivt.bits.toNat = 0 ∧ t = ((s.writeOut .frq F64.posInf).raiseDz).advance) ∨
       (s.x.ivt.bits.toNat ≠ 0 ∧ s.y.ivs.valid = true ∧
          t = (s.writeOut .frq (reciprocalOf s.y.ivs.bits)).advance)) := by
  simp only [execFreq, State.inCycle_next, State.withU16_next, RawFile.getU16]
  by_cases h : s.x.ivt.bits.toNat = 0
  · simp [h, State.flagTicks, eq_comm (b := t)]
  · simp [h, State.withOut_next, OutFile.get, State.flagTicks, eq_comm (b := t)]

theorem execDone_next : execDone s = .next t ↔ s.st = .awaitingBytes ∧ t = s.finish := by
  simp only [execDone, State.inCycle_next, next_eq_next]

theorem execStart_next : execStart s = .next t ↔
    s.st = .idle ∧ s.cfgWritten = true ∧ t = s.beginCycle := by
  unfold execStart
  cases h : s.st <;> cases h' : s.cfgWritten <;> simp [eq_comm]

/-- No micro-operation runs in Idle. -/
theorem exec_next_st {i : Instr} (hi : i ≠ .start) (h : exec i s = .next t) : s.st = .awaitingBytes := by
  cases i <;> simp only [exec] at h
  case txb => exact (execTxb_next.1 h).1
  case rdu8 => exact (execRdu8_next.1 h).1
  case rdu16 => exact (execRdu16_next.1 h).1
  case rdi16 => exact (execRdi16_next.1 h).1
  case scacc => exact (execScacc_next.1 h).1
  case scgyr => exact (execScgyr_next.1 h).1
  case fxalt => exact (execFxalt_next.1 h).1
  case fxtmp => exact (execFxtmp_next.1 h).1
  case ivsec => exact (execIvsec_next.1 h).1
  case freq => exact (execFreq_next.1 h).1
  case done => exact (execDone_next.1 h).1
  case start => exact absurd rfl hi

end

end Sys2Proof.Machine
end

