-- ==== Sys2Proof/Laws/Agreement.lean ====
section
/-! SUPPORT. Agreement under the shared operations. -/

namespace Sys2Proof.Machine

theorem agree_nextAnswer {s t : State} (h : s.Agree t) : s.nextAnswer = t.nextAnswer := by
  simp [State.nextAnswer, h.rx, h.rxCount]

theorem Reg.Agree.invalidate {w} (a b : Reg w) : a.invalidate.Agree b.invalidate := by simp [Reg.Agree]

theorem agree_request {s t : State} (h : s.Agree t) : s.requestAnswered.Agree t.requestAnswered := by
  have hn := (agree_nextAnswer h)
  obtain ⟨a1, a2, a3, a4, a5, a6, a7, a8, a9, a10, a11, a12, a13, a14, a15, a16, a17, a18, a19⟩ := h
  constructor <;> simp_all

theorem agree_abort {s t : State} (h : s.Agree t) (g c) : (s.abort g c).Agree (t.abort g c) := by
  obtain ⟨a1, a2, a3, a4, a5, a6, a7, a8, a9, a10, a11, a12, a13, a14, a15, a16, a17, a18, a19⟩ := h
  constructor <;> simp_all [Reg.Agree]

theorem agree_latch {s t : State} (h : s.Agree t) (b) : (s.latchHigh b).Agree (t.latchHigh b) := by
  obtain ⟨a1, a2, a3, a4, a5, a6, a7, a8, a9, a10, a11, a12, a13, a14, a15, a16, a17, a18, a19⟩ := h
  constructor <;> simp_all
theorem agree_release {s t : State} (h : s.Agree t) : (s.releaseHigh).Agree (t.releaseHigh) := by
  obtain ⟨a1, a2, a3, a4, a5, a6, a7, a8, a9, a10, a11, a12, a13, a14, a15, a16, a17, a18, a19⟩ := h
  constructor <;> simp_all

theorem agree_readByte {s t : State} (h : s.Agree t) (g) (k : Byte → State → State) (hk : ∀ b u v, State.Agree u v → (k b u).Agree (k b v)) :
   (s.readByte g k).Agree (t.readByte g k) := by
  rcases State.readByte_cases s g k with ⟨b, h1, h2⟩ | ⟨c, h1, h2⟩
  · rw [h2, State.readByte_byte (by rw [← (agree_nextAnswer h), h1])]; exact hk _ _ _ (agree_request h)
  · rw [h2, State.readByte_abort (by rw [← (agree_nextAnswer h), h1])]; exact agree_abort (agree_request h) _ _

theorem agree_readWord {s t : State} (h : s.Agree t) (g) (k : RawWord → State → State) (hk : ∀ b u v, State.Agree u v → (k b u).Agree (k b v)) :
   (s.readWord g k).Agree (t.readWord g k) := by
  have h1 := agree_request h
  rcases State.readWord_cases s g k with ⟨b0, b1, e0, e1, e⟩ | ⟨c, e0, e⟩ | ⟨b0, c, e0, e1, e⟩
  · rw [e, State.readWord_bytes (by rw [← (agree_nextAnswer h), e0]) (by rw [← (agree_nextAnswer h1), e1])]
    exact hk _ _ _ (agree_release (agree_request (agree_latch h1 _)))
  · rw [e, State.readWord_abort_first (by rw [← (agree_nextAnswer h), e0])]; exact agree_abort h1 _ _
  · rw [e, State.readWord_abort_second (by rw [← (agree_nextAnswer h), e0]) (by rw [← (agree_nextAnswer h1), e1])]
    exact agree_abort (agree_request (agree_latch h1 _)) _ _

theorem agree_write {s t : State} (h : s.Agree t) (hst : s.st = .awaitingBytes) (d v) : (s.writeOut d v).advance.Agree (t.writeOut d v).advance := by
  obtain ⟨a1, a2, a3, a4, a5, a6, a7, a8, a9, a10, a11, a12, a13, a14, a15, a16, a17, a18, a19⟩ := h
  constructor <;> simp_all
  intro r; split <;> simp_all [Reg.Agree]

theorem agree_i16 {s t : State} (h : s.Agree t) (r k k') (hk : ∀ a, OutcomesAgree (k a) (k' a)) : OutcomesAgree (s.withI16 r k) (t.withI16 r k') := by
  obtain ⟨h1, h2⟩ := h.i16 r
  unfold State.withI16
  rw [← h1]
  split
  · rw [← h2 ‹_›]; exact hk _
  · rfl
theorem agree_u16 {s t : State} (h : s.Agree t) (r k k') (hk : ∀ a, OutcomesAgree (k a) (k' a)) : OutcomesAgree (s.withU16 r k) (t.withU16 r k') := by
  obtain ⟨h1, h2⟩ := h.u16 r
  unfold State.withU16
  rw [← h1]
  split
  · rw [← h2 ‹_›]; exact hk _
  · rfl
theorem agree_u8 {s t : State} (h : s.Agree t) (r k k') (hk : ∀ a, OutcomesAgree (k a) (k' a)) : OutcomesAgree (s.withU8 r k) (t.withU8 r k') := by
  obtain ⟨h1, h2⟩ := h.u8 r
  unfold State.withU8
  rw [← h1]
  split
  · rw [← h2 ‹_›]; exact hk _
  · rfl
theorem agree_out {s t : State} (h : s.Agree t) (r k k') (hk : ∀ a, OutcomesAgree (k a) (k' a)) : OutcomesAgree (s.withOut r k) (t.withOut r k') := by
  obtain ⟨h1, h2⟩ := h.y r
  unfold State.withOut
  rw [← h1]
  split
  · rw [← h2 ‹_›]; exact hk _
  · rfl

theorem agree_inCycle {s t : State} (h : s.Agree t) {o p} (ho : s.st = .awaitingBytes → OutcomesAgree o p) : OutcomesAgree (s.inCycle o) (t.inCycle p) := by
  unfold State.inCycle
  rw [← h.st]
  cases hst : s.st
  · rfl
  · exact ho hst

theorem agree_begin {s t : State} (h1 : s.cfgVariant = t.cfgVariant) (h2 : s.cfgWritten = t.cfgWritten) (h3 : s.rx = t.rx) (h4 : s.rxCount = t.rxCount) (h5 : s.events = t.events) (h6 : s.readData = t.readData) (h7 : s.turns = t.turns) : s.beginCycle.Agree t.beginCycle := by
  constructor <;> simp_all [Reg.Agree]

end Sys2Proof.Machine
end

