-- ==== Sys2Proof/Laws/Decode.lean ====
section
/-! SUPPORT. The fields of a micro-operation word, the legal register indices, and what each decoding form accepts. -/

namespace Sys2Proof

/-- A word is made of its three fields. -/
theorem microWord_fields (w : MicroWord) : microWord (opField w) (regField w) (immField w) = w := by
  apply BitVec.eq_of_getLsbD_eq
  intro i hi
  simp only [microWord, opField, regField, immField, BitVec.getLsbD_append, BitVec.getLsbD_extractLsb']
  rcases Nat.lt_or_ge i 8 with h | h
  · simp [h]
  · rcases Nat.lt_or_ge (i - 8) 4 with h' | h'
    · simp [show ¬ i < 8 by omega, h', show 8 + (i - 8) = i by omega]
    · simp [show ¬ i < 8 by omega, show ¬ (i - 8) < 4 by omega, show 12 + (i - 8 - 4) = i by omega, show i - 8 - 4 < 4 by omega]

theorem opField_microWord (op r : BitVec 4) (m : Byte) : opField (microWord op r m) = op := by
  apply BitVec.eq_of_getLsbD_eq
  intro i hi
  simp only [microWord, opField, BitVec.getLsbD_append, BitVec.getLsbD_extractLsb', hi, show ¬ 12 + i < 8 by omega,
    show ¬ 12 + i - 8 < 4 by omega, show 12 + i - 8 - 4 = i by omega, decide_true, Bool.true_and, if_false]

theorem regField_microWord (op r : BitVec 4) (m : Byte) : regField (microWord op r m) = r := by
  apply BitVec.eq_of_getLsbD_eq
  intro i hi
  simp only [microWord, regField, BitVec.getLsbD_append, BitVec.getLsbD_extractLsb', hi, show ¬ 8 + i < 8 by omega,
    show 8 + i - 8 = i by omega, decide_true, Bool.true_and, if_false, if_true]

theorem immField_microWord (op r : BitVec 4) (m : Byte) : immField (microWord op r m) = m := by
  apply BitVec.eq_of_getLsbD_eq
  intro i hi
  simp only [microWord, immField, BitVec.getLsbD_append, BitVec.getLsbD_extractLsb', Nat.zero_add, hi, decide_true,
    Bool.true_and, if_true]

theorem I16Reg.ofIndex_eq {r : BitVec 4} {a : I16Reg} : I16Reg.ofIndex r = some a ↔ r = a.index := by
  revert r; cases a <;> decide

theorem U16Reg.ofIndex_eq {r : BitVec 4} {a : U16Reg} : U16Reg.ofIndex r = some a ↔ r = a.index := by
  revert r; cases a <;> decide

theorem U8Reg.ofIndex_eq {r : BitVec 4} {a : U8Reg} : U8Reg.ofIndex r = some a ↔ r = a.index := by
  revert r; cases a <;> decide

theorem Axis.ofIndex_eq {r : BitVec 4} {a : Axis} : Axis.ofIndex r = some a ↔ r = a.index := by
  revert r; cases a <;> decide

theorem decodeReg_ok {α : Type} {w : MicroWord} {f : BitVec 4 → Option α} {k : α → Instr} {i : Instr} :
    decodeReg w f k = .ok i ↔ ∃ a, f (regField w) = some a ∧ immField w = 0 ∧ i = k a := by
  unfold decodeReg
  cases f (regField w) <;> simp
  split <;> simp_all [eq_comm]

theorem decodePlain_ok {w : MicroWord} {i j : Instr} :
    decodePlain w j = .ok i ↔ regField w = 0 ∧ immField w = 0 ∧ i = j := by
  unfold decodePlain
  split <;> simp_all
  split <;> simp_all [eq_comm]

theorem decodeTxb_ok {w : MicroWord} {i : Instr} :
    decodeTxb w = .ok i ↔ regField w = 0 ∧ triggerBytes.contains (immField w) = true ∧ i = .txb (immField w) := by
  unfold decodeTxb
  split <;> simp_all
  split <;> simp_all [eq_comm]

end Sys2Proof
end

