-- ==== Sys2Proof/Laws/F64.lean ====
section
/-! SUPPORT. The integer datapath of binary64 beside the rationals: the exponent, the rounding, the packed pattern. -/

namespace Sys2Proof.Machine
theorem F64.natLog2_bounds {n : Nat} (h : 0 < n) : 2 ^ Nat.log2 n ≤ n ∧ n < 2 ^ (Nat.log2 n + 1) :=
  ⟨Nat.log2_self_le (by omega), Nat.lt_log2_self⟩

/-- `ilog2` is the binary exponent of the quotient. -/
theorem F64.ilog2_eq {p d : Nat} (hp : 0 < p) (hd : 0 < d) : F64.ilog2 p d = Int.log 2 ((p : ℚ) / d) := by
  have hp' : (0 : ℚ) < p := by exact_mod_cast hp
  have hd' : (0 : ℚ) < d := by exact_mod_cast hd
  obtain ⟨p1, p2⟩ := natLog2_bounds hp
  obtain ⟨d1, d2⟩ := natLog2_bounds hd
  have p1' : (2 : ℚ) ^ (Nat.log2 p) ≤ p := by exact_mod_cast p1
  have p2' : (p : ℚ) < 2 ^ (Nat.log2 p + 1) := by exact_mod_cast p2
  have d1' : (2 : ℚ) ^ (Nat.log2 d) ≤ d := by exact_mod_cast d1
  have d2' : (d : ℚ) < 2 ^ (Nat.log2 d + 1) := by exact_mod_cast d2
  set a := Nat.log2 p
  set b := Nat.log2 d
  have key : ∀ E : ℤ, (2:ℚ) ^ E * d ≤ p → (p:ℚ) < 2 ^ (E + 1) * d → E = Int.log 2 ((p : ℚ) / d) := by
    intro E h1 h2
    have hq : (0:ℚ) < (p:ℚ)/d := by positivity
    apply le_antisymm
    · rw [← Int.zpow_le_iff_le_log (by norm_num) hq]
      rw [Nat.cast_ofNat, le_div_iff₀ hd']; exact h1
    · rw [← Int.lt_add_one_iff, ← Int.lt_zpow_iff_log_lt (by norm_num) hq]
      rw [Nat.cast_ofNat, div_lt_iff₀ hd']; exact h2
  have low : (2:ℚ) ^ (((a:ℤ) - b) - 1) * d ≤ p := by
    have : (2:ℚ) ^ (((a:ℤ) - b) - 1) * 2 ^ (b+1) = 2 ^ a := by
      rw [← zpow_natCast, ← zpow_natCast, ← zpow_add₀ (by norm_num)]; congr 1; push_cast; ring
    nlinarith [show (0:ℚ) < (2:ℚ) ^ (((a:ℤ) - b) - 1) by positivity]
  have high : (p:ℚ) < (2:ℚ) ^ (((a:ℤ) - b) + 1) * d := by
    have : (2:ℚ) ^ (((a:ℤ) - b) + 1) * 2 ^ b = 2 ^ (a+1) := by
      rw [← zpow_natCast, ← zpow_natCast, ← zpow_add₀ (by norm_num)]; congr 1; push_cast; ring
    nlinarith [show (0:ℚ) < (2:ℚ) ^ (((a:ℤ) - b) + 1) by positivity]
  have cond : d * 2 ^ ((a:ℤ) - b).toNat ≤ p * 2 ^ (-((a:ℤ) - b)).toNat ↔ (2:ℚ) ^ ((a:ℤ) - b) * d ≤ p := by
    rcases le_total (b:ℤ) a with h | h
    · obtain ⟨k, hk⟩ := Int.eq_ofNat_of_zero_le (sub_nonneg.2 h)
      rw [hk]
      simp only [Int.toNat_natCast, zpow_natCast]
      rw [show (-(k:ℤ)).toNat = 0 by omega]
      rw [← Nat.cast_le (α := ℚ)]; push_cast; rw [mul_one, mul_comm]
    · obtain ⟨k, hk⟩ := Int.eq_ofNat_of_zero_le (sub_nonneg.2 h)
      rw [show (a:ℤ) - b = -(k:ℤ) by omega]
      simp only [neg_neg, Int.toNat_natCast, zpow_neg, zpow_natCast]
      rw [show (-(k:ℤ)).toNat = 0 by omega]
      rw [← Nat.cast_le (α := ℚ)]; push_cast; rw [mul_one, inv_mul_le_iff₀ (by positivity), mul_comm]
  show (if d * 2 ^ ((a:ℤ) - b).toNat ≤ p * 2 ^ (-((a:ℤ) - b)).toNat then (a:ℤ) - b else (a:ℤ) - b - 1) = _
  split
  · next h => exact key _ (cond.1 h) high
  · next h =>
    refine key _ low ?_
    rw [sub_add_cancel]
    exact not_le.1 (mt cond.2 h)

/-- `roundDiv` rounds the quotient to nearest even. -/
theorem F64.roundDiv_eq (n : Nat) {d : Nat} (hd : 0 < d) :
    ((F64.roundDiv n d : Nat) : ℤ) =
      (if (n : ℚ) / d - ⌊(n : ℚ) / d⌋ > 1 / 2 ∨ ((n : ℚ) / d - ⌊(n : ℚ) / d⌋ = 1 / 2 ∧ ⌊(n : ℚ) / d⌋ % 2 = 1)
        then ⌊(n : ℚ) / d⌋ + 1 else ⌊(n : ℚ) / d⌋) := by
  have hd' : (0 : ℚ) < d := by exact_mod_cast hd
  have hf : ⌊(n : ℚ) / d⌋ = ((n / d : Nat) : ℤ) := by
    rw [Rat.floor_natCast_div_natCast]; norm_cast
  have ht : (n : ℚ) / d - ((n / d : Nat) : ℚ) = ((n % d : Nat) : ℚ) / d := by
    rw [eq_div_iff hd'.ne', sub_mul, div_mul_cancel₀ _ hd'.ne']
    have := Nat.div_add_mod n d
    have h2 : (d : ℚ) * ((n/d : Nat) : ℚ) + ((n % d : Nat) : ℚ) = n := by exact_mod_cast this
    linarith
  rw [hf]
  have h1 : (n : ℚ) / d - (((n / d : Nat) : ℤ) : ℚ) > 1 / 2 ↔ d < 2 * (n % d) := by
    rw [Int.cast_natCast, ht, gt_iff_lt, lt_div_iff₀ hd', ← Nat.cast_lt (α := ℚ)]; push_cast
    constructor <;> intro h <;> linarith
  have h2 : (n : ℚ) / d - (((n / d : Nat) : ℤ) : ℚ) = 1 / 2 ↔ 2 * (n % d) = d := by
    rw [Int.cast_natCast, ht, div_eq_iff hd'.ne', ← Nat.cast_inj (R := ℚ)]; push_cast
    constructor <;> intro h <;> linarith
  have h3 : ((n / d : Nat) : ℤ) % 2 = 1 ↔ n / d % 2 = 1 := by omega
  simp only [h1, h2, h3, F64.roundDiv]
  split <;> simp

/-- The value of a packed pattern, `m` = 2^53 included. -/
theorem F64.value_pack (neg : Bool) {E : ℤ} {m : Nat} (h1 : -1022 ≤ E) (h2 : E ≤ 1022) (h3 : 2 ^ 52 ≤ m)
    (h4 : m ≤ 2 ^ 53) :
    F64.value (F64.pack neg E m) = some ((if neg then -1 else 1) * (m : ℚ) * (2 : ℚ) ^ (E - 52)) := by
  obtain ⟨e, he⟩ := Int.eq_ofNat_of_zero_le (show (0:ℤ) ≤ E + 1022 by omega)
  have he2 : e ≤ 2044 := by omega
  have hE : E = (e : ℤ) - 1022 := by omega
  have pk : ∀ x : Nat, x = (if neg then 2 ^ 63 else 0) + e * 2 ^ 52 + m → ∀ c f : Nat, 1 ≤ c → c ≤ 2046 → f < 2^52 → e * 2 ^ 52 + m = c * 2^52 + f →
      F64.value (BitVec.ofNat 64 x) = some ((if neg then -1 else 1) * (2:ℚ)^((c:ℤ) - 1023) * (1 + (f:ℚ) / 2^52)) := by
    intro x hx c f hc1 hc2 hf hcf
    have hxx : x = (if neg then 2 ^ 63 else 0) + c * 2^52 + f := by rw [hx]; omega
    have hlt : x < 2 ^ 64 := by rw [hxx]; split <;> omega
    have hn : (BitVec.ofNat 64 x).toNat = x := by rw [BitVec.toNat_ofNat]; exact Nat.mod_eq_of_lt hlt
    have hexp : F64.expField (BitVec.ofNat 64 x) = c := by
      simp only [F64.expField, BitVec.extractLsb'_toNat, hn, Nat.shiftRight_eq_div_pow]
      rw [hxx]; split <;> omega
    have hfrac : F64.fracField (BitVec.ofNat 64 x) = f := by
      simp only [F64.fracField, BitVec.extractLsb'_toNat, hn, Nat.shiftRight_eq_div_pow]
      rw [hxx]; split <;> omega
    have hsign : F64.signBit (BitVec.ofNat 64 x) = neg := by
      have hm : (BitVec.ofNat 64 x).msb = neg := by
        rw [BitVec.msb_eq_decide, hn, hxx]
        cases neg <;> simp <;> omega
      simpa [F64.signBit, BitVec.msb_eq_getLsbD_last] using hm
    have hne : BitVec.ofNat 64 x ≠ 0 := by
      intro h0
      have := congrArg BitVec.toNat h0
      rw [hn] at this
      simp at this; rw [hxx] at this; omega
    rw [F64.value, if_neg hne, hexp, if_pos ⟨hc1, hc2⟩, hsign, hfrac]
  have hpack : F64.pack neg E m = BitVec.ofNat 64 ((if neg then 2 ^ 63 else 0) + e * 2 ^ 52 + m) := by
    rw [F64.pack, he]; rfl
  rw [hpack]
  rcases Nat.lt_or_ge m (2 ^ 53) with h | h
  · rw [pk _ rfl (e + 1) (m - 2 ^ 52) (by omega) (by omega) (by omega) (by omega), hE]
    congr 1
    rw [Nat.cast_sub h3]
    push_cast
    rw [show ((e:ℤ) + 1 - 1023) = ((e:ℤ) - 1022 - 52) + 52 by ring, zpow_add₀ (by norm_num) _ 52]
    cases neg <;> norm_num <;> field_simp <;> ring
  · have hm : m = 2 ^ 53 := by omega
    rw [pk _ rfl (e + 2) 0 (by omega) (by omega) (by omega) (by omega), hE, hm]
    congr 1
    push_cast
    rw [show ((e:ℤ) + 2 - 1023) = ((e:ℤ) - 1022 - 52) + 53 by ring, zpow_add₀ (by norm_num) _ 53]
    cases neg <;> norm_num <;> ring
end Sys2Proof.Machine
end

