-- ==== Sys2Proof/Laws/Program.lean ====
section
/-! SUPPORT. What the ROM holds at each address of a microprogram, as facts about the instruction there. -/

namespace Sys2Proof.Machine

/-- A legal word of the ROM and its instruction. -/
theorem romInstr_eq_some {a : RomAddress} {i : Instr} : romInstr a = some i ↔ decode (rom a) = .ok i := by
  unfold romInstr
  cases decode (rom a) <;> simp [Except.toOption]

/-- The ROM holds no host command. -/
theorem romInstr_ne_start {a : RomAddress} {i : Instr} (h : romInstr a = some i) : i ≠ .start := by
  rintro rfl
  have : ∀ a, romInstr a ≠ some .start := by decide +kernel
  exact this a h

/-- The eleven raw registers. -/
def allRaw : List RawReg :=
  [.i16 .ax, .i16 .ay, .i16 .az, .i16 .gx, .i16 .gy, .i16 .gz, .u16 .altc, .u8 .altf, .u8 .tmpc, .u8 .tmpf, .u16 .ivt]

/-- The ten output registers. -/
def allOut : List OutReg := [.accx, .accy, .accz, .gyrx, .gyry, .gyrz, .alt, .tmp, .ivs, .frq]

theorem mem_allRaw (r : RawReg) : r ∈ allRaw := by rcases r with r | r | r <;> cases r <;> decide

theorem mem_allOut (r : OutReg) : r ∈ allOut := by cases r <;> decide

/-- The raw registers an instruction reads. -/
def rawNeeds : Instr → List RawReg
  | .scacc i => [.i16 (accSource i)]
  | .scgyr i => [.i16 (gyrSource i)]
  | .fxalt => [.u16 .altc, .u8 .altf]
  | .fxtmp => [.u8 .tmpc, .u8 .tmpf]
  | .ivsec => [.u16 .ivt]
  | .freq => [.u16 .ivt]
  | _ => []

/-- The facts of `ProgFacts` at one address, as a computation. -/
def progOk (v : Variant) (a : RomAddress) : Bool :=
  match romInstr a with
  | none => false
  | some i =>
    (i != .start) &&
    (rawNeeds i).all (rawWrittenBefore v a) &&
    (i != .freq || outWrittenBefore v a .ivs) &&
    (match i with | .txb b => triggerBytes.contains b | _ => true) &&
    (if i = .done then a == doneAddress v else
      inProgram v (a+1) &&
      allRaw.all (fun r => rawWrittenBefore v (a+1) r == (rawWrittenBefore v a r || (rawDest i == some r))) &&
      allOut.all (fun r => outWrittenBefore v (a+1) r == (outWrittenBefore v a r || (outDest i == some r)))) &&
    ((rawDest i).isNone || allOut.all (fun r => !outWrittenBefore v a r)) &&
    ((outDest i).isNone || !(outWrittenBefore v a .frq))

theorem progOk_all : ∀ v a, inProgram v a = true → progOk v a = true := by
  intro v; cases v <;> decide +kernel

/-- What is true of the instruction at an address of a microprogram. -/
structure ProgFacts (v : Variant) (a : RomAddress) (i : Instr) : Prop where
  notStart : i ≠ .start
  needs : ∀ r ∈ rawNeeds i, rawWrittenBefore v a r = true
  freqNeeds : i = .freq → outWrittenBefore v a .ivs = true
  trigger : ∀ b, i = .txb b → triggerBytes.contains b = true
  atDone : i = .done → a = doneAddress v
  next : i ≠ .done → inProgram v (a+1) = true
  nextRaw : i ≠ .done → ∀ r, rawWrittenBefore v (a+1) r = (rawWrittenBefore v a r || (rawDest i == some r))
  nextOut : i ≠ .done → ∀ r, outWrittenBefore v (a+1) r = (outWrittenBefore v a r || (outDest i == some r))
  readsFirst : rawDest i ≠ none → ∀ r, outWrittenBefore v a r = false
  frqLast : outDest i ≠ none → outWrittenBefore v a .frq = false

theorem progFacts {v : Variant} {a : RomAddress} {i : Instr} (h : inProgram v a = true) (hi : romInstr a = some i) : ProgFacts v a i := by
  have := progOk_all v a h
  simp only [progOk, hi, Bool.and_eq_true, bne_iff_ne, ne_eq, List.all_eq_true, Bool.or_eq_true, Option.isNone_iff_eq_none, Bool.not_eq_true'] at this
  obtain ⟨⟨⟨⟨⟨⟨h1, h2⟩, h3⟩, h4⟩, h5⟩, h6⟩, h7⟩ := this
  refine ⟨h1, h2, fun e => h3.resolve_left (fun h => h e), fun b e => by subst e; exact h4, fun e => ?_, fun e => ?_, fun e r => ?_, fun e r => ?_, fun e r => ?_, fun e => ?_⟩
  · rw [if_pos e] at h5; simpa using h5
  · rw [if_neg e] at h5; simp at h5; exact h5.1.1
  · rw [if_neg e] at h5; simp at h5; simpa using h5.1.2 r (mem_allRaw r)
  · rw [if_neg e] at h5; simp at h5; simpa using h5.2 r (mem_allOut r)
  · exact h6.resolve_left e r (mem_allOut r)
  · exact h7.resolve_left e

theorem romInstr_of_inProgram {v : Variant} {a : RomAddress} (h : inProgram v a = true) : ∃ i, romInstr a = some i := by
  have := progOk_all v a h
  unfold progOk at this
  split at this
  · cases this
  · exact ⟨_, ‹_›⟩

end Sys2Proof.Machine
end

