-- ==== Sys2Proof/Laws/Step.lean ====
section
/-! SUPPORT. Everything one step can do. -/

namespace Sys2Proof.Machine

section
variable {s t : State}

theorem State.hostRead_next {h : Nat} : s.hostRead h = .next t ↔
    ∃ v, s.hostValue h = .ok v ∧ t = { s with readData := s.readData ++ [(h, v)] } := by
  unfold State.hostRead
  cases s.hostValue h <;> simp [eq_comm]

theorem State.due_sequencer (h : s.sequencerTurn) : s.due = s.turnTaken.sequencerDue := by
  rcases h with h | h <;> simp [State.due, h]

theorem State.sequencerDue_ok {i : Instr} (h : s.st = .awaitingBytes) (hd : decode (rom s.upc) = .ok i) :
    s.sequencerDue = .run i s := by simp [State.sequencerDue, h, hd]

theorem State.sequencerDue_idle (h : s.st = .idle) : s.sequencerDue = .outcome (.next s) := by
  simp [State.sequencerDue, h]

/-- The ways a step answers a next state: the sequencer waits in Idle, the sequencer executes the fetched
micro-operation, the host writes CFG, presents START, writes nothing that counts, or reads, or reset is applied. -/
theorem step_cases (h : step s = .next t) :
    (s.sequencerTurn ∧ s.st = .idle ∧ t = s.turnTaken) ∨
    (s.sequencerTurn ∧ s.st = .awaitingBytes ∧ ∃ i, decode (rom s.upc) = .ok i ∧ exec i s.turnTaken = .next t) ∨
    (∃ v, s.turns.head? = some (.write 0 v) ∧ t = s.turnTaken.writeConfig v) ∨
    (∃ v, s.turns.head? = some (.write 1 v) ∧ v[0] = true ∧ execStart s.turnTaken = .next t) ∨
    (∃ n v, s.turns.head? = some (.write n v) ∧ n ≠ 0 ∧ (n = 1 → v[0] = false) ∧ t = s.turnTaken) ∨
    (∃ n v, s.turns.head? = some (.read n) ∧ s.turnTaken.hostValue n = .ok v ∧
      t = { s.turnTaken with readData := s.readData ++ [(n, v)] }) ∨
    (s.turns.head? = some .reset ∧ t = s.turnTaken.resetBlock) := by
  have seq : s.sequencerTurn → (s.st = .idle ∧ t = s.turnTaken) ∨
      (s.st = .awaitingBytes ∧ ∃ i, decode (rom s.upc) = .ok i ∧ exec i s.turnTaken = .next t) := by
    intro hs
    rw [step, State.due_sequencer hs, State.sequencerDue] at h
    cases hst : s.st <;> simp only [State.turnTaken_st, hst, State.turnTaken_upc] at h
    · simp_all
    · cases hd : decode (rom s.upc) <;> simp_all
  rcases hh : s.turns.head? with _ | (_ | ⟨n, v⟩ | n | _)
  · rcases seq (.inl hh) with h' | h'
    · exact .inl ⟨.inl hh, h'⟩
    · exact .inr (.inl ⟨.inl hh, h'⟩)
  · rcases seq (.inr hh) with h' | h'
    · exact .inl ⟨.inr hh, h'⟩
    · exact .inr (.inl ⟨.inr hh, h'⟩)
  · simp only [step, State.due, hh] at h
    rcases n with _ | _ | n
    · exact .inr (.inr (.inl ⟨v, rfl, next_eq_next.1 h⟩))
    · cases hv : v[0]
      · refine .inr (.inr (.inr (.inr (.inl ⟨_, v, rfl, by decide, fun _ => hv, ?_⟩))))
        simpa [State.hostWriteDue, decodeCtrl, hv, eq_comm (b := t)] using h
      · refine .inr (.inr (.inr (.inl ⟨v, rfl, hv, ?_⟩)))
        simpa [State.hostWriteDue, decodeCtrl, hv, exec] using h
    · exact .inr (.inr (.inr (.inr (.inl ⟨_, v, rfl, by omega, by omega, next_eq_next.1 h⟩))))
  · simp only [step, State.due, hh, State.hostRead_next] at h
    obtain ⟨v, h1, h2⟩ := h
    exact .inr (.inr (.inr (.inr (.inr (.inl ⟨n, v, rfl, h1, h2⟩)))))
  · exact .inr (.inr (.inr (.inr (.inr (.inr ⟨rfl, by simpa [step, State.due, hh, eq_comm] using h⟩)))))

end

end Sys2Proof.Machine
end

