-- ==== Sys2Proof/Laws/Invariant.lean ====
section
/-! SUPPORT. The invariant under the two ends of a cycle, a read that completes, and a write of an output. -/

namespace Sys2Proof.Machine

theorem inv_congr {s t : State} (h : s.Inv) (h1 : t.st = s.st) (h2 : t.upc = s.upc) (h3 : t.var = s.var) (h4 : t.x = s.x) (h5 : t.whv = s.whv)
    (h6 : t.y = s.y) (h7 : t.kind = s.kind) (h8 : t.stage = s.stage) (h9 : t.cause = s.cause) (h10 : t.dz = s.dz) (h11 : s.cfgWritten = true → t.cfgWritten = true) : t.Inv := by
  obtain ⟨a1, a2, a3, a4, a5, a6, a7, a8, a9, a10, a11, a12, a13⟩ := h
  constructor <;> simp only [h1, h2, h3, h4, h5, h6, h7, h8, h9, h10] <;> try assumption
  intro h; exact ⟨(a3 h).1, h11 (a3 h).2⟩

theorem abort_inv {s : State} (g c) (hz : s.dz = false) : (s.abort g c).Inv where
  whvClear := rfl
  busyPlace := nofun
  busyRecord := nofun
  busyRaw := nofun
  busyOut := nofun
  okRaw := nofun
  okOut := nofun
  elseRaw := fun _ _ => by simp
  elseOut := fun _ _ => by simp
  noFailure := fun h => absurd rfl h
  failure := nofun
  scaled := fun r => by simp
  zeroTicks := by simp [hz, OutFile.invalidate]

theorem begin_inv {s : State} (hc : s.cfgWritten = true) : s.beginCycle.Inv where
  whvClear := rfl
  busyPlace := fun _ => by cases h : s.cfgVariant <;> simp [h] <;> decide
  busyRecord := fun _ => ⟨rfl, hc⟩
  busyRaw := fun _ r => by
    have : ∀ v r, rawWrittenBefore v (entryAddress v) r = false := by
      intro v; cases v <;> rintro (r | r | r) <;> cases r <;> decide
    simp [this]
  busyOut := fun _ r => by
    have : ∀ v r, outWrittenBefore v (entryAddress v) r = false := by
      intro v; cases v <;> intro r <;> cases r <;> decide
    simp [this]
  okRaw := nofun
  okOut := nofun
  elseRaw := nofun
  elseOut := nofun
  noFailure := fun _ => ⟨rfl, rfl⟩
  failure := nofun
  scaled := fun r => by simp
  zeroTicks := by simp [OutFile.invalidate]

/-- a read that completes -/
theorem read_inv {s t : State} {i : Instr} {d : RawReg} (hi : s.Inv) (hst : s.st = .awaitingBytes) (hf : ProgFacts s.var s.upc i)
   (hd : rawDest i = some d) (hne : i ≠ .done)
   (h1 : t.st = s.st) (h2 : t.upc = s.upc + 1) (h3 : t.var = s.var) (h5 : t.whv = false)
    (h6 : t.y = s.y) (h7 : t.kind = s.kind) (h8 : t.stage = s.stage) (h9 : t.cause = s.cause) (h10 : t.dz = s.dz) (h11 : t.cfgWritten = s.cfgWritten)
    (hx : ∀ r, t.x.valid r = if r = d then true else s.x.valid r) : t.Inv := by
  have hrf := hf.readsFirst (by simp [hd])
  have hout : ∀ r, (s.y.get r).valid = false := fun r => by rw [hi.busyOut hst, hrf]
  constructor
  · exact h5
  · intro _; rw [h2, h3]; exact hf.next hne
  · intro _; rw [h7, h11]; exact hi.busyRecord hst
  · intro _ r; rw [h2, h3, hf.nextRaw hne, hx, hd, ← hi.busyRaw hst]
    by_cases e : r = d
    · simp [e]
    · simp [e, Ne.symm e]
  · intro _ r
    have : outDest i = none := by cases i <;> simp_all [rawDest, outDest]
    rw [h2, h3, hf.nextOut hne, h6, ← hi.busyOut hst]; simp [this]
  · intro h; rw [h1, hst] at h; cases h
  · intro h; rw [h1, hst] at h; cases h
  · intro h; rw [h1, hst] at h; cases h
  · intro h; rw [h1, hst] at h; cases h
  · intro h; rw [h7] at h; rw [h8, h9]; exact hi.noFailure h
  · intro h; rw [h7, (hi.busyRecord hst).1] at h; cases h
  · intro r h; rw [h6, hout r] at h; cases h
  · have : t.y.frq.valid = false := by rw [h6]; exact hout .frq
    have : s.y.frq.valid = false := hout .frq
    rw [h10, hi.zeroTicks, h6]; simp [this]

theorem scale_inv {s t : State} {i : Instr} {d : OutReg} {v : Pattern} (hi : s.Inv) (hst : s.st = .awaitingBytes) (hf : ProgFacts s.var s.upc i)
   (hd : outDest i = some d) (hne : i ≠ .done)
   (h1 : t.st = s.st) (h2 : t.upc = s.upc + 1) (h3 : t.var = s.var) (h5 : t.whv = s.whv)
    (h6 : t.y = s.y.set d (.written v)) (h7 : t.kind = s.kind) (h8 : t.stage = s.stage) (h9 : t.cause = s.cause) (h11 : t.cfgWritten = s.cfgWritten)
    (hx : t.x = s.x) (hv : v = outputOf s.x d) (h10 : t.dz = if d = .frq then (s.x.ivt.bits == 0) else s.dz) : t.Inv := by
  have hfrq := hf.frqLast (by simp [hd])
  have hfv : s.y.frq.valid = false := by have := hi.busyOut hst .frq; rw [hfrq] at this; exact this
  constructor
  · rw [h5]; exact hi.whvClear
  · intro _; rw [h2, h3]; exact hf.next hne
  · intro _; rw [h7, h11]; exact hi.busyRecord hst
  · intro _ r
    have : rawDest i = none := by cases i <;> simp_all [rawDest, outDest]
    rw [h2, h3, hf.nextRaw hne, hx, ← hi.busyRaw hst]; simp [this]
  · intro _ r
    rw [h2, h3, hf.nextOut hne, h6, hd, ← hi.busyOut hst, OutFile.get_set]
    by_cases e : r = d
    · simp [e]
    · simp [e, Ne.symm e]
  · intro h; rw [h1, hst] at h; cases h
  · intro h; rw [h1, hst] at h; cases h
  · intro h; rw [h1, hst] at h; cases h
  · intro h; rw [h1, hst] at h; cases h
  · intro h; rw [h7] at h; rw [h8, h9]; exact hi.noFailure h
  · intro h; rw [h7, (hi.busyRecord hst).1] at h; cases h
  · intro r; rw [h6, OutFile.get_set, hx]
    split
    · rename_i e; subst e; intro _; simpa using hv
    · exact hi.scaled r
  · rw [h10, hx, h6]
    by_cases e : d = .frq
    · subst e; simp [OutFile.set]
    · have : (s.y.set d (.written v)).frq = s.y.frq := by cases d <;> first | exact absurd rfl e | rfl
      rw [this, if_neg e, hi.zeroTicks]

theorem dz_clear {s : State} {i : Instr} (hi : s.Inv) (hst : s.st = .awaitingBytes) (hf : ProgFacts s.var s.upc i) (hd : rawDest i ≠ none) : s.dz = false := by
  have := hi.busyOut hst .frq
  rw [hf.readsFirst hd .frq] at this
  rw [hi.zeroTicks, show s.y.frq.valid = false from this]; rfl

end Sys2Proof.Machine
end

