-- ==== Sys2Proof/Laws/PerInstr.lean ====
section
/-! SUPPORT. Statements made per instruction, one lemma per constructor of Instr. `EncodingMatchesTable`: the encoding of a
well-formed instruction has the fixed bits of its row of spec/opcode_table.json, START's the command bit of
30_encoding.md R87. -/

namespace Sys2Proof.Laws.EncodingMatchesTable

/-- The fixed bits of an instruction's row: the mask and the value under it. START is no ROM word. -/
def row : Instr → Option (MicroWord × MicroWord)
  | .txb _ => some (0xFF00, 0x1000)
  | .rdu8 _ => some (0xF0FF, 0x2000)
  | .rdu16 _ => some (0xF0FF, 0x3000)
  | .rdi16 _ => some (0xF0FF, 0x4000)
  | .scacc _ => some (0xF0FF, 0x5000)
  | .scgyr _ => some (0xF0FF, 0x6000)
  | .fxalt => some (0xFFFF, 0x7000)
  | .fxtmp => some (0xFFFF, 0x8000)
  | .ivsec => some (0xFFFF, 0x9000)
  | .freq => some (0xFFFF, 0xA000)
  | .done => some (0xFFFF, 0xF000)
  | .start => none

/-- An encoding fits the fixed bits of a row. -/
def fits : Encoding → Option (MicroWord × MicroWord) → Bool
  | .rom w, some (mask, value) => w &&& mask == value
  | .ctrl v, none => v[0]
  | _, _ => false

/-- The encoding of a well-formed instruction fits its row. -/
def Statement (i : Instr) : Prop := i.wellFormed = true → fits (encode i) (row i) = true

theorem txb (imm : Byte) : Statement (.txb imm) := by
  intro h
  have h : imm = 0x41 ∨ imm = 0x47 ∨ imm = 0x42 := by simpa [Instr.wellFormed, triggerBytes] using h
  rcases h with rfl | rfl | rfl <;> decide

theorem rdu8 (rd : U8Reg) : Statement (.rdu8 rd) := fun _ => by cases rd <;> decide
theorem rdu16 (rd : U16Reg) : Statement (.rdu16 rd) := fun _ => by cases rd <;> decide
theorem rdi16 (rd : I16Reg) : Statement (.rdi16 rd) := fun _ => by cases rd <;> decide
theorem scacc (i : Axis) : Statement (.scacc i) := fun _ => by cases i <;> decide
theorem scgyr (i : Axis) : Statement (.scgyr i) := fun _ => by cases i <;> decide
theorem fxalt : Statement .fxalt := fun _ => by decide
theorem fxtmp : Statement .fxtmp := fun _ => by decide
theorem ivsec : Statement .ivsec := fun _ => by decide
theorem freq : Statement .freq := fun _ => by decide
theorem done : Statement .done := fun _ => by decide
theorem start : Statement .start := fun _ => by decide

end Sys2Proof.Laws.EncodingMatchesTable
end

