-- ==== Sys2Proof/Laws/Trace.lean ====
section
/-! SUPPORT. The event trace, the answers of the stream, and what every micro-operation's next state has in common. -/

namespace Sys2Proof.Machine

theorem txBytes_append (a b : List Event) : txBytes (a ++ b) = txBytes a ++ txBytes b := by
  induction a with
  | nil => rfl
  | cons e a ih => cases e <;> simp [txBytes, ih]
theorem results_append (a b : List Event) : results (a ++ b) = results a ++ results b := by
  induction a with
  | nil => rfl
  | cons e a ih => cases e <;> simp [results, ih]
theorem rxAnswers_append (a b : List Event) : rxAnswers (a ++ b) = rxAnswers a ++ rxAnswers b := by
  induction a with
  | nil => rfl
  | cons e a ih => cases e <;> simp [rxAnswers, ih]

theorem nextAnswer_eq_answerAt (s : State) : s.nextAnswer = s.answerAt 0 := by
  unfold State.nextAnswer State.answerAt; cases s.rx <;> simp

theorem nextAnswer_requestAnswered (s : State) : s.requestAnswered.nextAnswer = s.answerAt 1 := by
  unfold State.nextAnswer State.answerAt; rcases h : s.rx with _ | ⟨_, _ | _⟩ <;> simp [h]

theorem tail_tail_eq_drop {α : Type} (l : List α) : l.tail.tail = l.drop 2 := by rcases l with _ | ⟨_, _ | _⟩ <;> rfl

/-- Everything a micro-operation's next state has in common. -/
theorem exec_summary {s t : State} {i : Instr} (hi : i ≠ .start) (h : exec i s = .next t) :
   s.st = .awaitingBytes ∧ t.turns = s.turns ∧ t.var = s.var ∧
   ( -- advance without request
    (t.st = .awaitingBytes ∧ t.upc = s.upc + 1 ∧ t.kind = s.kind ∧ t.stage = s.stage ∧ t.cause = s.cause ∧ i ≠ .done ∧
      (t.dz = s.dz ∨ (i = .freq ∧ s.x.ivt.bits = 0 ∧ t.dz = true)) ∧
      ((t.events = s.events ∧ t.rx = s.rx ∧ t.rxCount = s.rxCount) ∨
       (∃ b, triggerBytes.contains b = true ∧ t.events = s.events ++ [.tx b] ∧ t.rx = s.rx ∧ t.rxCount = s.rxCount) ∨
       (rawDest i ≠ none ∧ t.events = s.events ++ [.rx s.nextAnswer] ∧ t.rx = s.rx.tail ∧ t.rxCount = s.rxCount + 1) ∨
       (rawDest i ≠ none ∧ t.events = s.events ++ [.rx s.nextAnswer, .rx s.requestAnswered.nextAnswer] ∧ t.rx = s.rx.drop 2 ∧ t.rxCount = s.rxCount + 2))) ∨
    (i = .done ∧ t = s.finish) ∨
    (∃ g c, rawDest i ≠ none ∧ t.st = .idle ∧ t.kind = .failed ∧ t.stage = g ∧ t.cause = some c ∧ t.dz = s.dz ∧
       ((t.events = s.events ++ [.rx s.nextAnswer, .result (.failed g c)] ∧ t.rx = s.rx.tail ∧ t.rxCount = s.rxCount + 1) ∨
        (t.events = s.events ++ [.rx s.nextAnswer, .rx s.requestAnswered.nextAnswer, .result (.failed g c)] ∧ t.rx = s.rx.drop 2 ∧ t.rxCount = s.rxCount + 2)))) := by
  have hst := exec_next_st hi h
  refine ⟨hst, ?_⟩
  cases i <;> simp only [exec] at h
  case txb b => obtain ⟨_, hb, rfl⟩ := execTxb_next.1 h; simp at hb; simp [hst, hb]
  case rdu8 rd =>
    obtain ⟨_, rfl⟩ := execRdu8_next.1 h
    rcases State.readByte_cases s (u8Stage rd) (fun b u => (u.writeU8 rd b).advance) with ⟨b, _, he⟩ | ⟨c, _, he⟩ <;> rw [he] <;> simp [hst, rawDest]
  case rdu16 rd =>
    obtain ⟨_, rfl⟩ := execRdu16_next.1 h
    rcases State.readWord_cases s (u16Stage rd) (fun b u => (u.writeU16 rd b).advance) with ⟨b, _, _, _, he⟩ | ⟨c, _, he⟩ | ⟨_, c, _, _, he⟩ <;> rw [he] <;> simp [hst, rawDest, tail_tail_eq_drop, State.nextAnswer]
  case rdi16 rd =>
    obtain ⟨_, rfl⟩ := execRdi16_next.1 h
    rcases State.readWord_cases s (i16Stage rd) (fun b u => (u.writeI16 rd b).advance) with ⟨b, _, _, _, he⟩ | ⟨c, _, he⟩ | ⟨_, c, _, _, he⟩ <;> rw [he] <;> simp [hst, rawDest, tail_tail_eq_drop, State.nextAnswer]
  case scacc a => obtain ⟨_, _, rfl⟩ := execScacc_next.1 h; simp [hst]
  case scgyr a => obtain ⟨_, _, rfl⟩ := execScgyr_next.1 h; simp [hst]
  case fxalt => obtain ⟨_, _, _, rfl⟩ := execFxalt_next.1 h; simp [hst]
  case fxtmp => obtain ⟨_, _, _, rfl⟩ := execFxtmp_next.1 h; simp [hst]
  case ivsec => obtain ⟨_, _, rfl⟩ := execIvsec_next.1 h; simp [hst]
  case freq =>
    obtain ⟨_, _, ⟨h0, rfl⟩ | ⟨h0, hv, rfl⟩⟩ := execFreq_next.1 h
    · have : s.x.ivt.bits = 0 := BitVec.eq_of_toNat_eq (by simpa using h0)
      simp [hst, this]
    · simp [hst]
  case done => obtain ⟨_, rfl⟩ := execDone_next.1 h; simp
  case start => exact absurd rfl hi

end Sys2Proof.Machine
end

