-- ==== Sys2Proof/Tests/Slice0.lean ====
section
/-! SUPPORT. Tests: ill-formed terms are refused, words written out from 30_encoding.md R82 decode, the vectors of
95_test_vectors.md section 2, one step each, and for every obligation with hypotheses a state that meets them. -/

namespace Sys2Proof.Tests

open Sys2Proof Sys2Proof.Machine

/-! ## Small states -/

/-- The next state, if there is one. -/
def after : Host.Outcome State Fault Refusal → Option State
  | .next s => some s
  | _ => none

/-- A field of the next state. -/
def field {α : Type} (o : Host.Outcome State Fault Refusal) (f : State → α) : Option α := (after o).map f

/-- The refusal, if there is one. -/
def refusal : Host.Outcome State Fault Refusal → Option Refusal
  | .refused r => some r
  | _ => none

/-- The fault, if there is one. -/
def fault : Host.Outcome State Fault Refusal → Option Fault
  | .fault r => some r
  | _ => none

/-- A block the host has configured for variant 1, in Idle. -/
def configured : State := { State.reset with cfgWritten := true }

/-- A cycle of variant 1 at its start, with these answers to come. -/
def busy (as : List RxAnswer) : State := { configured with st := .awaitingBytes, rx := as }

/-- A cycle in which the i16 registers, the u16 registers and the u8 registers hold these values. -/
def loaded (i u : RawWord) (b : Byte) : State :=
  { busy [] with
    x := ⟨.written i, .written i, .written i, .written i, .written i, .written i, .written u, .written b, .written b,
      .written b, .written u⟩ }

/-- A cycle whose interval word and `IVS` hold these values. -/
def timed (t : RawWord) (v : Pattern) : State :=
  { loaded 0 t 0 with y := { OutFile.reset with ivs := .written v } }

/-- A state with these turns to come. -/
def turned (s : State) (ts : List Turn) : State := { s with turns := ts }

/-! ## WellFormed refuses what R82 gives no encoding -/

theorem test_txb_zero_ill_formed : (Instr.txb 0x00).wellFormed = false := by decide
theorem test_txb_reply_byte_ill_formed : (Instr.txb 0x61).wellFormed = false := by decide
theorem test_triggers_well_formed :
    (Instr.txb 0x41).wellFormed && (Instr.txb 0x47).wellFormed && (Instr.txb 0x42).wellFormed = true := by decide

/-! ## Decoding: words from R82 and R90, bit by bit -/

theorem test_decode_txb : decode 0b0001000001000010 = .ok (.txb 0x42) := by decide
theorem test_decode_rdu8 : decode 0b0010011100000000 = .ok (.rdu8 .altf) := by decide
theorem test_decode_rdu16 : decode 0b0011011000000000 = .ok (.rdu16 .altc) := by decide
theorem test_decode_rdi16 : decode 0b0100000100000000 = .ok (.rdi16 .ay) := by decide
theorem test_decode_scacc : decode 0b0101000100000000 = .ok (.scacc .y) := by decide
theorem test_decode_scgyr : decode 0b0110001000000000 = .ok (.scgyr .z) := by decide
theorem test_decode_fxalt : decode 0b0111000000000000 = .ok .fxalt := by decide
theorem test_decode_fxtmp : decode 0b1000000000000000 = .ok .fxtmp := by decide
theorem test_decode_ivsec : decode 0b1001000000000000 = .ok .ivsec := by decide
theorem test_decode_freq : decode 0b1010000000000000 = .ok .freq := by decide
theorem test_decode_done : decode 0b1111000000000000 = .ok .done := by decide
theorem test_decode_start : decodeCtrl 0b11111111 = some .start ∧ decodeCtrl 0b11111110 = none := by decide
theorem test_illegal_opcode : decode 0x0000 = .error .opcode ∧ decode 0xB000 = .error .opcode := by decide
theorem test_illegal_register : decode 0x3700 = .error .register ∧ decode 0x5300 = .error .register := by decide
theorem test_illegal_immediate : decode 0x1000 = .error .immediate ∧ decode 0x4001 = .error .immediate := by decide
theorem test_rom_entries : rom 0 = 0x1041 ∧ rom 22 = 0xF000 ∧ rom 36 = 0x1047 ∧ rom 53 = 0xF000 ∧ rom 63 = 0 := by
  decide

/-! ## One step, with the vectors of 95_test_vectors.md section 2 -/

/-- 2.1, RDU8 TMPC on 80: 128, not -128. -/
theorem test_rdu8_unsigned : field (exec (.rdu8 .tmpc) (busy [.byte 0x80])) (·.x.value (.u8 .tmpc)) = some 128 := by
  decide

/-- 2.1, RDU8 TMPF on C. -/
theorem test_rdu8_closed : field (exec (.rdu8 .tmpf) (busy [.closed])) (fun t => (t.status, t.x.tmpf.valid, t.rx)) =
    some (0x54, false, []) := by decide

/-- 2.1, RDU16 ALTC on 0A 00: the first byte is the high byte. -/
theorem test_rdu16_big_endian :
    field (exec (.rdu16 .altc) (busy [.byte 0x0A, .byte 0x00])) (·.x.value (.u16 .altc)) = some 2560 := by decide

/-- 2.1, RDU16 IVT on 27 T: one byte consumed, no value observable. -/
theorem test_rdu16_partial : field (exec (.rdu16 .ivt) (busy [.byte 0x27, .timeout]))
    (fun t => (t.status, t.x.ivt.valid, t.whv, t.rxCount)) = some (0x3C, false, false, 2) := by decide

/-- 2.1, RDI16 AY on 80 00: the boundary folds. -/
theorem test_rdi16_folds :
    field (exec (.rdi16 .ay) (busy [.byte 0x80, .byte 0x00])) (·.x.value (.i16 .ay)) = some (-32768) := by decide

/-- 2.1, RDI16 GY on 00 FF: the low byte is never sign-extended. -/
theorem test_rdi16_low_byte :
    field (exec (.rdi16 .gy) (busy [.byte 0x00, .byte 0xFF])) (·.x.value (.i16 .gy)) = some 255 := by decide

/-- 2.3, SCACC of 3: an exact tie goes to even. -/
theorem test_scacc_tie : field (exec (.scacc .x) (loaded 3 0 0)) (·.y.accx.bits) = some 0x3F9D6E147AE147AE := by decide

/-- 2.3, SCACC of -32768. -/
theorem test_scacc_min : field (exec (.scacc .z) (loaded 0x8000 0 0)) (·.y.accz.bits) = some 0xC0739EB851EB851F := by
  decide

/-- 2.3, SCGYR of -131. -/
theorem test_scgyr_negative : field (exec (.scgyr .y) (loaded (-131) 0 0)) (·.y.gyry.bits) = some 0xBFEFFB8000000000 := by
  decide

/-- 2.3, SCGYR of 32767. -/
theorem test_scgyr_max : field (exec (.scgyr .x) (loaded 0x7FFF 0 0)) (·.y.gyrx.bits) = some 0x406F3FC180000000 := by
  decide

/-- 2.3, FXALT of 65535 and 255: the fraction byte carries. -/
theorem test_fxalt_max : field (exec .fxalt (loaded 0 0xFFFF 0xFF)) (·.y.alt.bits) = some 0x40F000EF00000000 := by decide

/-- 2.3, FXTMP of 255 and 255. -/
theorem test_fxtmp_max : field (exec .fxtmp (loaded 0 0 0xFF)) (·.y.tmp.bits) = some 0x4070EF0000000000 := by decide

/-- 42_scaler.md R149, IVSEC of 10000: the binary64 value printed 0.001. -/
theorem test_ivsec_milli : field (exec .ivsec (loaded 0 10000 0)) (·.y.ivs.bits) = some 0x3F50624DD2F1A9FC := by decide

/-- 1, E5: the frequency of 10000 ticks is 1000 exactly. -/
theorem test_freq_kilo :
    field (exec .freq (timed 10000 0x3F50624DD2F1A9FC)) (fun t => (t.y.frq.bits, t.dz)) = some (0x408F400000000000, false) := by
  decide

/-- 1, E4: no ticks give +INF and DZ. -/
theorem test_freq_zero : field (exec .freq (timed 0 0)) (fun t => (t.y.frq.bits, t.dz)) = some (0x7FF0000000000000, true) := by
  decide

/-- 2.2, TXB at address 0. -/
theorem test_txb : field (step (busy [])) (fun t => (t.events, t.upc)) = some ([.tx 0x41], 1) := by decide

/-- 2.2, DONE with DZ. -/
theorem test_done_dz : field (exec .done { busy [] with upc := 22, dz := true }) (fun t => (t.status, t.events, t.upc)) =
    some (0x82, [.result .ok], 22) := by decide

/-- 2.2, START of variant 2 with reserved bits set. -/
theorem test_start_variant_two :
    field (step (turned { configured with cfgVariant := .perBlock } [.write 1 0xFF])) (fun t => (t.upc, t.var, t.status)) =
      some (32, .perBlock, 0x01) := by decide

/-- 2.2, START while busy, and after reset with CFG never written. -/
theorem test_start_refused : refusal (step (turned (busy []) [.write 1 1])) = some .startWhileBusy
    ∧ refusal (step (turned State.reset [.write 1 1])) = some .startBeforeConfig := by decide

/-- An instruction placed after reset is the first to run: TXB, DONE, START (log entry 6). -/
theorem test_placed : field (step (State.reset.withFetchWord 16 0x1042)) (·.events) = some [.tx 0x42]
    ∧ field (step (State.reset.withFetchWord 16 0xF000)) (·.kind) = some .ok
    ∧ field (step (State.reset.withFetchWord 8 0x01)) (·.st) = some .awaitingBytes := by decide

/-! ## Witnesses: for every obligation with hypotheses, a state that meets all of them, clause by clause -/

/-- A cycle of variant 1 right after START meets the invariant. -/
theorem test_begun_inv : configured.beginCycle.Inv := begin_inv rfl

theorem test_witness_ResetAppliesInEveryState : (turned (busy []) [.reset]).turns.head? = some .reset := by decide

theorem test_witness_EveryStepKeepsTheInvariant :
    configured.beginCycle.Inv ∧ step configured.beginCycle = .next (configured.beginCycle.txWrite 0x41).advance :=
  ⟨test_begun_inv, rfl⟩

theorem test_witness_SequencerNeverStops : configured.beginCycle.Inv ∧ configured.beginCycle.sequencerTurn :=
  ⟨test_begun_inv, .inl rfl⟩

theorem test_witness_EveryCycleEnds :
    configured.beginCycle.Inv ∧ configured.beginCycle.st = .awaitingBytes ∧ configured.beginCycle.turns = [] :=
  ⟨test_begun_inv, rfl, rfl⟩

/-- Two different states agree: reset with another `WH`, another counter in Idle and another invalid `ALTC`. -/
theorem test_witness_StepsKeepAgreement :
    State.reset.Agree { State.reset with wh := 7, upc := 9, x := { RawFile.reset with altc := ⟨5, false⟩ } } := by
  constructor <;> first | decide | (intro r; cases r <;> simp [Reg.Agree, State.reset, RawFile.reset, OutFile.reset,
    Reg.reset, RawFile.getI16, RawFile.getU16, RawFile.getU8, OutFile.get])

/-- Reset with CFG written, and the same with an outcome, `DZ` and `WHV` left behind. -/
theorem test_witness_StartForgetsTheLastCycle :
    let t := { configured with dz := true, kind := .ok, whv := true }
    configured.st = .idle ∧ t.st = .idle ∧ configured.cfgWritten = true ∧ t.cfgWritten = true ∧ configured.SameStreams t
      ∧ configured.readData = t.readData ∧ configured.turns = t.turns ∧ configured.cfgVariant = t.cfgVariant :=
  ⟨rfl, rfl, rfl, rfl, ⟨rfl, rfl, rfl⟩, rfl, rfl, rfl⟩

/-- A step that returns to Idle by DONE, and one that does by Abort; neither is a reset. -/
theorem test_witness_OneResultEventPerReturnToIdle :
    field (step { busy [] with upc := 22 }) (fun t => (t.st, results t.events)) = some (.idle, [.ok])
    ∧ field (step { busy [.timeout] with upc := 1 }) (fun t => (t.st, results t.events)) =
        some (.idle, [.failed .accel .ioTimeout])
    ∧ field (step (busy [])) (·.st) = some .awaitingBytes
    ∧ (busy []).turns.head? ≠ some .reset := by decide

theorem test_witness_OnlyTriggerBytesAreSent : field (step (busy [])) (fun t => txBytes t.events) = some [0x41] := by decide

/-- Steps that issue no request, one and two. -/
theorem test_witness_RequestsFollowTheStream :
    field (step (busy [])) (·.rxCount) = some 0
    ∧ field (step { busy [.byte 1, .closed] with upc := 8 }) (fun t => (t.rxCount, t.rx)) = some (1, [.closed])
    ∧ field (step { busy [.byte 1, .closed] with upc := 1 }) (fun t => (t.rxCount, t.rx)) = some (2, []) := by decide

/-- `DZ` set by FREQ, cleared by START, cleared by reset. -/
theorem test_witness_DivideByZeroFlagWriters :
    field (step { timed 0 0 with upc := 21 }) (·.dz) = some true
    ∧ field (step (turned { configured with dz := true } [.write 1 1])) (·.dz) = some false
    ∧ field (step (turned { configured with dz := true } [.reset])) (·.dz) = some false := by decide

/-- The record untouched, cleared by START, set by DONE, set by Abort. -/
theorem test_witness_OutcomeRecordWriters :
    field (step (busy [])) (fun t => (t.kind, t.stage, t.cause)) = some (.none, .accel, none)
    ∧ field (step (turned { configured with kind := .ok } [.write 1 1])) (·.kind) = some .none
    ∧ field (step { busy [] with upc := 53 }) (·.kind) = some .ok
    ∧ field (step { busy [.closed] with upc := 11 }) (fun t => (t.kind, t.stage, t.cause)) =
        some (.failed, .interval, some .streamClosed)
    ∧ (turned { configured with kind := .ok } [.write 1 1]).turns.head? ≠ some .reset := by decide

/-- A Sample that stays, one that START ends, one that reset ends. -/
theorem test_witness_SampleIsStable :
    (after (step { configured with kind := .ok })).isSome = true ∧ { configured with kind := .ok }.st = .idle
    ∧ { configured with kind := .ok }.kind = .ok
    ∧ field (step (turned { configured with kind := .ok } [.write 1 1])) (·.sample) = some none
    ∧ field (step (turned { configured with kind := .ok } [.reset])) (·.sample) = some none := by decide

/-- A cycle that goes on, by the sequencer and under a host access; one that begins; one that ends. -/
theorem test_witness_ControlTransfers :
    field (step (busy [])) (fun t => (t.st, t.upc)) = some (.awaitingBytes, 1)
    ∧ field (step (turned (busy []) [.read 2])) (fun t => (t.st, t.upc)) = some (.awaitingBytes, 0)
    ∧ field (step (turned configured [.write 1 1])) (fun t => (t.st, t.upc)) = some (.awaitingBytes, 0)
    ∧ field (step { busy [] with upc := 22 }) (·.st) = some .idle
    ∧ (busy []).turns.head? ≠ some .reset := by decide

theorem test_witness_DecodeAndEncodeAgree :
    (Instr.txb 0x47).wellFormed = true ∧ (Instr.rdu16 .ivt).wellFormed = true ∧ Instr.start.wellFormed = true
      ∧ decode 0x1047 = .ok (.txb 0x47) ∧ decode 0x3A00 = .ok (.rdu16 .ivt) := by decide

/-- A word with an `imm`, a word with an `r`, and a cycle at an unused address. -/
theorem test_witness_IllegalWordsAreRefused :
    (immField 0x40FF ≠ 0 ∧ (opField 0x40FF).toNat ≠ 1)
    ∧ ((opField 0x1040).toNat = 1 ∧ immField 0x1040 ∉ triggerBytes) ∧ inProgram .perBlock 53 = true
    ∧ (regField 0x1F41 ≠ 0 ∧ (opField 0x1F41).toNat ∈ [0x1, 0x7, 0x8, 0x9, 0xA, 0xF])
    ∧ ({ busy [] with upc := 23 }.st = .awaitingBytes ∧ { busy [] with upc := 23 }.turns.head? = none
      ∧ rom { busy [] with upc := 23 }.upc ∉ legalWords) := by decide

theorem test_witness_RomHoldsTheTwoMicroprograms :
    (22 < (23 : RomAddress).toNat ∧ (31 : RomAddress).toNat < 32) ∧ 53 < (54 : RomAddress).toNat := by decide

theorem test_witness_StepExecutesTheFetchedInstruction :
    (busy []).st = .awaitingBytes ∧ (busy []).turns.head? = none
      ∧ (turned (busy []) [.sequencer]).turns.head? = some .sequencer ∧ decode (rom (busy []).upc) = .ok (.txb 0x41) := by
  decide

theorem test_witness_IdleWaits : configured.st = .idle ∧ configured.turns.head? = none ∧ Instr.done ≠ .start := by decide

theorem test_witness_CtrlRegister :
    (turned configured [.write 1 0xFF]).turns.head? = some (.write 1 0xFF) ∧ (0xFF : Byte)[0] = true ∧ (0xFE : Byte)[0] = false
      ∧ (turned configured [.read 1]).turns.head? = some (.read 1) := by decide

theorem test_witness_PlacedInstructionRunsNext :
    decodeTableWord 16 0x1041 = some (.txb 0x41) ∧ decodeTableWord 16 0xF000 = some .done
      ∧ decodeTableWord 8 0x01 = some .start ∧ decodeTableWord 8 0xFF = some .start := by decide

theorem test_witness_StartAcceptance :
    (turned configured [.write 1 0xFF]).turns.head? = some (.write 1 0xFF) ∧ (0xFF : Byte)[0] = true
      ∧ (configured.st = .idle ∧ configured.cfgWritten = true) ∧ (turned (busy []) [.write 1 1]).st = .awaitingBytes
      ∧ (State.reset.st = .idle ∧ State.reset.cfgWritten = false) := by decide

theorem test_witness_StartBeginsACycle :
    { configured with kind := .failed, dz := true, whv := true }.st = .idle
      ∧ { configured with kind := .failed, dz := true, whv := true }.cfgWritten = true := by decide

theorem test_witness_TxbSendsItsByte : (busy []).st = .awaitingBytes ∧ ((0x42 : Byte) = 0x41 ∨ (0x42 : Byte) = 0x47 ∨ (0x42 : Byte) = 0x42) := by
  decide

theorem test_witness_TxbIllegalImmediate : (busy []).st = .awaitingBytes ∧ (0x43 : Byte) ∉ triggerBytes := by decide

theorem test_witness_DoneEndsTheCycle : (busy []).st = .awaitingBytes ∧ { busy [] with dz := true }.st = .awaitingBytes := by
  decide

theorem test_witness_OnlyReadsAbort : rawDest (.txb 0x41) = none ∧ (after (exec (.txb 0x41) (busy []))).isSome = true
    ∧ rawDest .start = none ∧ (after (exec .start configured)).isSome = true := by decide

theorem test_witness_Rdu8ReadsOneByte : (busy [.byte 0xFF]).st = .awaitingBytes ∧ (busy [.byte 0xFF]).nextAnswer = .byte 0xFF
    ∧ (busy [.timeout]).nextAnswer = .timeout ∧ (busy [.closed]).nextAnswer = .closed := by decide

theorem test_witness_Rdu16ReadsABigEndianWord :
    (busy [.byte 0xFF, .byte 0xFF]).st = .awaitingBytes ∧ (busy [.byte 0xFF, .byte 0xFE]).nextAnswer = .byte 0xFF
    ∧ (busy [.byte 0xFF, .byte 0xFE]).requestAnswered.nextAnswer = .byte 0xFE
    ∧ answerCause (busy [.timeout]).nextAnswer = some .ioTimeout
    ∧ answerCause (busy [.byte 1, .closed]).requestAnswered.nextAnswer = some .streamClosed := by decide

/-- The same answers serve RDI16; its fold has a boundary, met from both sides. -/
theorem test_witness_Rdi16ReadsAFoldedWord :
    (busy [.byte 0x7F, .byte 0xFF]).nextAnswer = .byte 0x7F ∧ (0x7F : Byte).toNat * 256 + (0xFF : Byte).toNat = 32767
    ∧ (busy [.byte 0x80, .byte 0x00]).nextAnswer = .byte 0x80 ∧ (0x80 : Byte).toNat * 256 + (0x00 : Byte).toNat = 32768
    ∧ answerCause (busy [.closed]).nextAnswer = some .streamClosed := by decide

theorem test_witness_FrameReaderFrame :
    rawDest (.rdi16 .ax) = some (.i16 .ax) ∧ field (exec (.rdi16 .ax) (busy [.byte 1, .byte 2])) (·.st) = some .awaitingBytes
    ∧ rawDest (.rdu8 .altf) = some (.u8 .altf) ∧ field (exec (.rdu8 .altf) (busy [.byte 1])) (·.st) = some .awaitingBytes := by
  decide

theorem test_witness_PartialReadPropagates :
    rawDest (.rdu16 .ivt) = some (.u16 .ivt) ∧ (busy [.byte 0x27, .timeout]).st = .awaitingBytes
    ∧ (busy [.byte 0x27, .timeout]).nextAnswer = .byte 0x27
    ∧ answerCause (busy [.byte 0x27, .timeout]).requestAnswered.nextAnswer = some .ioTimeout := by decide

theorem test_witness_ScaccScalesTheAcceleration :
    I16Reg.az.index = Axis.z.index ∧ outputOfHostReg (8 + Axis.z.index.toNat) = some .accz
    ∧ (loaded 0x8000 0 0).st = .awaitingBytes ∧ (loaded 0x8000 0 0).x.valid (.i16 .az) = true := by decide

theorem test_witness_ScgyrScalesTheRateExactly :
    I16Reg.gx.index = 3 + Axis.x.index ∧ outputOfHostReg (11 + Axis.x.index.toNat) = some .gyrx
    ∧ (loaded 0x7FFF 0 0).st = .awaitingBytes ∧ (loaded 0x7FFF 0 0).x.valid (.i16 .gx) = true := by decide

theorem test_witness_FxaltAddsTheFraction : (loaded 0 0xFFFF 0xFF).st = .awaitingBytes
    ∧ (loaded 0 0xFFFF 0xFF).x.altc.valid = true ∧ (loaded 0 0xFFFF 0xFF).x.altf.valid = true := by decide

theorem test_witness_FxtmpAddsTheFraction : (loaded 0 0 0xFF).st = .awaitingBytes
    ∧ (loaded 0 0 0xFF).x.tmpc.valid = true ∧ (loaded 0 0 0xFF).x.tmpf.valid = true := by decide

theorem test_witness_IvsecDividesTheTicks : (loaded 0 0xFFFF 0).st = .awaitingBytes ∧ (loaded 0 0xFFFF 0).x.ivt.valid = true := by
  decide

/-- No ticks; one tick, and `IVS` holds 1, whose reciprocal is in the range. -/
theorem test_witness_FreqTakesTheReciprocal :
    ((timed 0 0).st = .awaitingBytes ∧ (timed 0 0).x.ivt.valid = true ∧ (timed 0 0).x.ivt.bits = 0)
    ∧ (timed 1 0x3FF0000000000000).st = .awaitingBytes ∧ (timed 1 0x3FF0000000000000).x.ivt.valid = true
    ∧ (timed 1 0x3FF0000000000000).x.ivt.bits ≠ 0 ∧ (timed 1 0x3FF0000000000000).y.ivs.valid = true
    ∧ F64.value (timed 1 0x3FF0000000000000).y.ivs.bits = some 1 ∧ (2 : ℚ) ^ (-1022 : ℤ) ≤ |(1 : ℚ)|
    ∧ |(1 : ℚ)| ≤ (2 : ℚ) ^ (1022 : ℤ) := by
  refine ⟨by decide, by decide, by decide, by decide, by decide, ?_, ?_, ?_⟩
  · have h1 : F64.expField 0x3FF0000000000000 = 1023 := by decide
    have h2 : F64.fracField 0x3FF0000000000000 = 0 := by decide
    have h3 : F64.signBit 0x3FF0000000000000 = false := by decide
    show F64.value 0x3FF0000000000000 = some 1
    rw [F64.value, if_neg (by decide), h1, h2, h3]
    norm_num
  · rw [abs_one]; exact zpow_le_one_of_nonpos₀ (by norm_num) (by norm_num)
  · rw [abs_one]; exact one_le_zpow₀ (by norm_num) (by norm_num)

/-- The largest count of ticks, and one, for both clauses. -/
theorem test_witness_FrequencyRoundsTwice :
    ((loaded 0 0xFFFF 0).st = .awaitingBytes ∧ (loaded 0 0xFFFF 0).x.ivt.valid = true ∧ (loaded 0 0xFFFF 0).x.ivt.bits ≠ 0)
    ∧ (loaded 0 1 0).x.ivt.bits ≠ 0 ∧ (0 < 65535 ∧ 65535 < 65536) ∧ 0 < 1 := by decide

theorem test_witness_ScalerFrame :
    outDest .freq = some .frq ∧ (after (exec .freq (timed 0 0))).isSome = true
    ∧ outDest (.scacc .y) = some .accy ∧ (after (exec (.scacc .y) (loaded 1 0 0))).isSome = true
    ∧ (timed 10000 0x3F50624DD2F1A9FC).x.ivt.bits ≠ 0 := by decide

/-- Every clause has a state: nothing valid, only the coarse bytes valid, the ticks valid without `IVS`. -/
theorem test_witness_InvalidOperandsFault :
    ((busy []).st = .awaitingBytes ∧ (busy []).x.valid (.i16 .az) = false ∧ (busy []).x.valid (.i16 .gz) = false
      ∧ (busy []).x.altc.valid = false ∧ (busy []).x.tmpc.valid = false ∧ (busy []).x.ivt.valid = false)
    ∧ ({ busy [] with x := { RawFile.reset with altc := .written 1, tmpc := .written 1 } }.x.altc.valid = true
      ∧ { busy [] with x := { RawFile.reset with altc := .written 1, tmpc := .written 1 } }.x.altf.valid = false)
    ∧ ((loaded 0 1 0).x.ivt.valid = true ∧ (loaded 0 1 0).x.ivt.bits ≠ 0 ∧ (loaded 0 1 0).y.ivs.valid = false)
    ∧ fault (exec .freq (loaded 0 1 0)) = some (.invalidOut .ivs) := by decide

theorem test_witness_DatapathRoundsAsRn :
    0 < 1 ∧ 0 < 3 ∧ (2 : ℚ) ^ (-1022 : ℤ) ≤ ((1 : Nat) : ℚ) / (3 : Nat) ∧ ((1 : Nat) : ℚ) / (3 : Nat) < (2 : ℚ) ^ (1023 : ℤ) := by
  refine ⟨by decide, by decide, ?_, ?_⟩
  · calc (2 : ℚ) ^ (-1022 : ℤ) ≤ 2 ^ (-2 : ℤ) := zpow_le_zpow_right₀ (by norm_num) (by norm_num)
      _ ≤ _ := by norm_num
  · calc ((1 : Nat) : ℚ) / (3 : Nat) < 2 ^ (0 : ℤ) := by norm_num
      _ ≤ _ := zpow_le_zpow_right₀ (by norm_num) (by norm_num)

theorem test_witness_RnIsNearest : |(2 ^ 53 : ℤ)| ≤ 2 ^ 53 ∧ |(-2 ^ 53 : ℤ)| ≤ 2 ^ 53 := by decide

theorem test_witness_RnIsExactOddAndMonotone : |(-2 ^ 53 : ℤ)| ≤ 2 ^ 53 ∧ (1 / 3 : ℚ) ≤ 1 / 2 := by
  refine ⟨by decide, by norm_num⟩

theorem test_witness_OutputRanges : (loaded 0 1 0).x.ivt.bits ≠ 0 ∧ (loaded 0 0xFFFF 0).x.ivt.bits ≠ 0 := by decide

theorem test_witness_SignsOfTheOutputs :
    -32768 ≤ (-32767 : Int) ∧ (-32767 : Int) ≤ 32767 ∧ (-32767 : Int) ≠ -32768 := by decide

theorem test_witness_RawValueIsRecoverable : -32768 ≤ (-32768 : Int) ∧ (32767 : Int) ≤ 32767 := by decide

theorem test_witness_StatusFields : (turned (busy []) [.read 2]).turns.head? = some (.read 2) := by decide

theorem test_witness_ConfigRegister :
    (turned (busy []) [.write 0 0xFF]).turns.head? = some (.write 0 0xFF) ∧ (turned configured [.read 0]).turns.head? = some (.read 0)
    ∧ configured.cfgWritten = true ∧ State.reset.cfgWritten = false := by decide

theorem test_witness_ReservedHostRegisters :
    (turned configured [.read 3]).turns.head? = some (.read 3) ∧ (turned configured [.read 18]).turns.head? = some (.read 18)
    ∧ (turned configured [.write 2 1]).turns.head? = some (.write 2 1) ∧ 2 ≤ 2 := by decide

/-- A read and the three kinds of writes answer a next state. -/
theorem test_witness_HostAccessFrame :
    (after (step (turned (busy []) [.read 2]))).isSome = true ∧ (after (step (turned (busy []) [.write 0 1]))).isSome = true
    ∧ (after (step (turned configured [.write 1 1]))).isSome = true ∧ (after (step (turned (busy []) [.write 1 0]))).isSome = true
    ∧ (after (step (turned (busy []) [.write 8 1]))).isSome = true := by decide

/-- A readable output at both ends of the window, and each reason for a refusal. -/
theorem test_witness_OutputRegisters :
    outputOfHostReg 8 = some .accx ∧ outputOfHostReg 17 = some .frq
    ∧ { configured with kind := .ok, y := { OutFile.reset with accx := .written 0 } }.st = .idle
    ∧ ({ configured with kind := .ok, y := { OutFile.reset with accx := .written 0 } }.y.get .accx).valid = true
    ∧ field (step (turned { configured with kind := .ok, y := { OutFile.reset with accx := .written 5 } } [.read 8]))
        (·.readData) = some [(8, 5)]
    ∧ (busy []).st = .awaitingBytes ∧ configured.kind ≠ .ok ∧ (configured.y.get .frq).valid = false := by decide

/-- A host that has just configured variant 1, presents START and leaves the block alone. -/
theorem test_witness_CompleteCycle :
    (List.replicate 19 (0xA5 : Byte)).length = frameLength .combined
    ∧ State.ReadyFor { turned configured [.write 1 1] with rx := List.replicate 19 (.byte 0xA5) ++ [.closed] } .combined
        ((List.replicate 19 (0xA5 : Byte)).map .byte) [.closed] :=
  ⟨rfl, rfl, rfl, rfl, rfl, rfl⟩

/-- The same for variant 2, which receives 17 bytes. -/
theorem test_witness_CompleteCycleDecodesTheFrame :
    (List.replicate 17 (0x5A : Byte)).length = frameLength .perBlock
    ∧ State.ReadyFor
        { turned { configured with cfgVariant := .perBlock } [.write 1 1] with rx := List.replicate 17 (.byte 0x5A) } .perBlock
        ((List.replicate 17 (0x5A : Byte)).map .byte) [] :=
  ⟨rfl, rfl, rfl, rfl, rfl, rfl⟩

/-- The last request of a frame fails, and the first one does. -/
theorem test_witness_AbortedCycle :
    (List.replicate 18 (0xA5 : Byte)).length < frameLength .combined ∧ ([] : List Byte).length < frameLength .combined
    ∧ answerCause .closed = some .streamClosed
    ∧ State.ReadyFor { turned configured [.write 1 1] with rx := List.replicate 18 (.byte 0xA5) ++ [.closed] } .combined
        ((List.replicate 18 (0xA5 : Byte)).map .byte ++ [.closed]) [] :=
  ⟨by decide, by decide, rfl, rfl, rfl, rfl, rfl, rfl⟩

end Sys2Proof.Tests
end

section
/-! Invalid operands (10_state.md R26, R29; 00_scope.md R13): a register access whose valid bit is 0 faults and names the
register; one whose valid bit is 1 runs on with the value. The faults of the scaler micro-operations follow from these. -/

namespace Sys2Proof.Machine

section
variable {s : State}

theorem State.withI16_invalid {r : I16Reg} {k : Int → Host.Outcome State Fault Refusal}
    (h : (s.x.getI16 r).valid = false) : s.withI16 r k = .fault (.invalidRaw (.i16 r)) := by
  simp [State.withI16, h]

theorem State.withU16_invalid {r : U16Reg} {k : Nat → Host.Outcome State Fault Refusal}
    (h : (s.x.getU16 r).valid = false) : s.withU16 r k = .fault (.invalidRaw (.u16 r)) := by
  simp [State.withU16, h]

theorem State.withU16_valid {r : U16Reg} {k : Nat → Host.Outcome State Fault Refusal}
    (h : (s.x.getU16 r).valid = true) : s.withU16 r k = k (s.x.getU16 r).bits.toNat :=
  if_pos h

theorem State.withU8_invalid {r : U8Reg} {k : Nat → Host.Outcome State Fault Refusal}
    (h : (s.x.getU8 r).valid = false) : s.withU8 r k = .fault (.invalidRaw (.u8 r)) := by
  simp [State.withU8, h]

theorem State.withU8_valid {r : U8Reg} {k : Nat → Host.Outcome State Fault Refusal}
    (h : (s.x.getU8 r).valid = true) : s.withU8 r k = k (s.x.getU8 r).bits.toNat :=
  if_pos h

theorem State.withOut_invalid {r : OutReg} {k : Pattern → Host.Outcome State Fault Refusal}
    (h : (s.y.get r).valid = false) : s.withOut r k = .fault (.invalidOut r) := by
  simp [State.withOut, h]

end

/-- Settles O44: in a cycle each micro-operation reaches its operand reads, and the first invalid one faults. FREQ reads
`IVS` only when the ticks are not 0. -/
theorem invalidOperandsFault : Obligations.InvalidOperandsFault := by
  intro s hst
  have inCycle {o} : s.inCycle o = o := State.inCycle_awaiting hst
  refine ⟨?scacc, ?scgyr, ?altc, ?altf, ?tmpc, ?tmpf, ?ivsec, ?freqIvt, ?freqIvs⟩
  case scacc => exact fun i h => inCycle.trans (State.withI16_invalid h)
  case scgyr => exact fun i h => inCycle.trans (State.withI16_invalid h)
  case altc => exact fun h => inCycle.trans (State.withU16_invalid h)
  case altf => exact fun hc hf => inCycle.trans ((State.withU16_valid (r := .altc) hc).trans (State.withU8_invalid hf))
  case tmpc => exact fun h => inCycle.trans (State.withU8_invalid h)
  case tmpf => exact fun hc hf => inCycle.trans ((State.withU8_valid (r := .tmpc) hc).trans (State.withU8_invalid hf))
  case ivsec => exact fun h => inCycle.trans (State.withU16_invalid h)
  case freqIvt => exact fun h => inCycle.trans (State.withU16_invalid h)
  case freqIvs =>
    intro ht hz hv
    have hticks : s.x.ivt.bits.toNat ≠ 0 := fun e => hz (BitVec.eq_of_toNat_eq e)
    exact inCycle.trans ((State.withU16_valid (r := .ivt) ht).trans ((if_neg hticks).trans (State.withOut_invalid hv)))

end Sys2Proof.Machine
end

section
/-! What one step does, turn by turn: an equation of `step` for each kind of turn (00_scope.md R4, R12; 10_state.md R35 to
R37; 41_sequencer.md R124). -/

namespace Sys2Proof.Machine

section
variable {s t : State} {n : Nat} {v : Byte}

theorem step_of_due_run {i : Instr} (h : s.due = .run i t) : step s = exec i t := by
  rw [step, h]

theorem step_of_due_outcome {o : Host.Outcome State Fault Refusal} (h : s.due = .outcome o) : step s = o := by
  rw [step, h]

theorem step_idle (hturn : s.sequencerTurn) (hst : s.st = .idle) : step s = .next s.turnTaken :=
  step_of_due_outcome ((State.due_sequencer hturn).trans (State.sequencerDue_idle hst))

theorem step_fetch {i : Instr} (hturn : s.sequencerTurn) (hst : s.st = .awaitingBytes)
    (hi : romInstr s.upc = some i) : step s = exec i s.turnTaken :=
  step_of_due_run ((State.due_sequencer hturn).trans (State.sequencerDue_ok hst (romInstr_eq_some.1 hi)))

theorem due_write (h : s.turns.head? = some (.write n v)) : s.due = s.turnTaken.hostWriteDue n v := by
  simp only [State.due, h]

theorem step_writeConfig (h : s.turns.head? = some (.write 0 v)) : step s = .next (s.turnTaken.writeConfig v) :=
  step_of_due_outcome (due_write h)

theorem step_writeCtrl_start (h : s.turns.head? = some (.write 1 v)) (hv : v[0] = true) :
    step s = exec .start s.turnTaken := by
  apply step_of_due_run
  simp [due_write h, State.hostWriteDue, decodeCtrl, hv]

/-- Every write is ignored but those to CFG and those that present START. -/
theorem step_write_ignored (h : s.turns.head? = some (.write n v)) (hcfg : n ≠ 0) (hctrl : n = 1 → v[0] = false) :
    step s = .next s.turnTaken := by
  apply step_of_due_outcome
  rw [due_write h]
  match n with
  | 0 => exact absurd rfl hcfg
  | 1 => simp [State.hostWriteDue, decodeCtrl, hctrl rfl]
  | _ + 2 => rfl

/-- Everything a host write that answers a next state can do. -/
theorem step_write_cases (h : s.turns.head? = some (.write n v)) (hs : step s = .next t) :
    (n = 0 ∧ t = s.turnTaken.writeConfig v) ∨
    (n = 1 ∧ v[0] = true ∧ t = s.turnTaken.beginCycle) ∨
    (n ≠ 0 ∧ t = s.turnTaken) := by
  by_cases hcfg : n = 0
  · subst hcfg
    exact .inl ⟨rfl, next_eq_next.1 ((step_writeConfig h).symm.trans hs)⟩
  by_cases hctrl : n = 1 ∧ v[0] = true
  · obtain ⟨rfl, hv⟩ := hctrl
    obtain ⟨_, _, ht⟩ := execStart_next.1 ((step_writeCtrl_start h hv).symm.trans hs)
    exact .inr (.inl ⟨rfl, hv, ht⟩)
  · have hi := step_write_ignored h hcfg (by simpa using hctrl)
    exact .inr (.inr ⟨hcfg, next_eq_next.1 (hi.symm.trans hs)⟩)

theorem step_read (h : s.turns.head? = some (.read n)) : step s = s.turnTaken.hostRead n := by
  apply step_of_due_outcome
  simp only [State.due, h]

theorem step_read_ok {w : BitVec 64} (h : s.turns.head? = some (.read n)) (hw : s.hostValue n = .ok w) :
    step s = .next { s with turns := s.turns.tail, readData := s.readData ++ [(n, w)] } :=
  (step_read h).trans (State.hostRead_next.2 ⟨w, hw, rfl⟩)

theorem step_read_refused {r : Refusal} (h : s.turns.head? = some (.read n)) (hr : s.hostValue n = .error r) :
    step s = .refused r := by
  have hr' : s.turnTaken.hostValue n = .error r := hr
  rw [step_read h, State.hostRead, hr']

end

end Sys2Proof.Machine
end

section
/-! The invariant (10_state.md R22, R26, R27, R29, R32 to R34; 42_scaler.md R144): it holds after reset, every step keeps
it, and under it the sequencer never stops. -/

namespace Sys2Proof.Machine

@[simp] theorem RawFile.valid_reset (r : RawReg) : RawFile.reset.valid r = false := by
  rcases r with r | r | r <;> cases r <;> rfl

@[simp] theorem OutFile.valid_reset (r : OutReg) : (OutFile.reset.get r).valid = false := by
  cases r <;> rfl

/-- Settles O3: after reset no register is valid and no cycle has an outcome. -/
theorem invariantHoldsAtReset : Obligations.InvariantHoldsAtReset where
  whvClear := rfl
  busyPlace := nofun
  busyRecord := nofun
  busyRaw := nofun
  busyOut := nofun
  okRaw := nofun
  okOut := nofun
  elseRaw := fun _ _ => RawFile.valid_reset
  elseOut := fun _ _ => OutFile.valid_reset
  noFailure := fun _ => ⟨rfl, rfl⟩
  failure := nofun
  scaled := fun r hr => by rw [State.reset, OutFile.valid_reset] at hr; cases hr
  zeroTicks := rfl

/-! ### Outside a micro-operation -/

section
variable {s t : State} {i : Instr}

theorem inv_resetBlock (s : State) : s.resetBlock.Inv :=
  inv_congr invariantHoldsAtReset rfl rfl rfl rfl rfl rfl rfl rfl rfl rfl id

theorem inv_turnTaken (hi : s.Inv) : s.turnTaken.Inv :=
  inv_congr hi rfl rfl rfl rfl rfl rfl rfl rfl rfl rfl id

/-! ### One micro-operation in a cycle -/

/-- A micro-operation that writes no register, TXB, leads to the next address with the same registers valid. -/
theorem inv_txWrite_advance (hi : s.Inv) (hst : s.st = .awaitingBytes) {b : Byte}
    (hf : ProgFacts s.var s.upc (.txb b)) : (s.txWrite b).advance.Inv where
  whvClear := hi.whvClear
  busyPlace := fun _ => hf.next nofun
  busyRecord := hi.busyRecord
  busyRaw := fun _ r => by
    have hnext : rawWrittenBefore s.var (s.upc + 1) r = rawWrittenBefore s.var s.upc r := by
      simpa [rawDest] using hf.nextRaw nofun r
    exact (hi.busyRaw hst r).trans hnext.symm
  busyOut := fun _ r => by
    have hnext : outWrittenBefore s.var (s.upc + 1) r = outWrittenBefore s.var s.upc r := by
      simpa [outDest] using hf.nextOut nofun r
    exact (hi.busyOut hst r).trans hnext.symm
  okRaw := hi.okRaw
  okOut := hi.okOut
  elseRaw := hi.elseRaw
  elseOut := hi.elseOut
  noFailure := hi.noFailure
  failure := hi.failure
  scaled := hi.scaled
  zeroTicks := hi.zeroTicks

/-- At DONE every register of the microprogram has been written, and no failure is on record. -/
theorem inv_finish (hi : s.Inv) (hst : s.st = .awaitingBytes) (hdone : s.upc = doneAddress s.var) : s.finish.Inv where
  whvClear := hi.whvClear
  busyPlace := nofun
  busyRecord := nofun
  busyRaw := nofun
  busyOut := nofun
  okRaw := fun _ _ => hdone ▸ hi.busyRaw hst
  okOut := fun _ _ => hdone ▸ hi.busyOut hst
  elseRaw := fun _ h => absurd rfl h
  elseOut := fun _ h => absurd rfl h
  noFailure := fun _ => hi.noFailure (by simp [(hi.busyRecord hst).1])
  failure := nofun
  scaled := hi.scaled
  zeroTicks := hi.zeroTicks

/-- The completion of a read: the raw register `d` becomes valid, `UPC` advances, all else stays. -/
def CompletesRead (d : RawReg) (k : State → State) : Prop :=
  ∀ u, ∃ x, k u = { u with x := x, upc := u.upc + 1 } ∧ ∀ r, x.valid r = if r = d then true else u.x.valid r

theorem completesRead_writeU8 (rd : U8Reg) (b : Byte) : CompletesRead (.u8 rd) fun u => (u.writeU8 rd b).advance :=
  fun u => ⟨_, rfl, fun r => u.x.valid_setU8 rd r (.written b)⟩

theorem completesRead_writeU16 (rd : U16Reg) (w : RawWord) :
    CompletesRead (.u16 rd) fun u => (u.writeU16 rd w).advance :=
  fun u => ⟨_, rfl, fun r => u.x.valid_setU16 rd r (.written w)⟩

theorem completesRead_writeI16 (rd : I16Reg) (w : RawWord) :
    CompletesRead (.i16 rd) fun u => (u.writeI16 rd w).advance :=
  fun u => ⟨_, rfl, fun r => u.x.valid_setI16 rd r (.written w)⟩

/-- A read of one byte keeps the invariant, whatever the request is answered. -/
theorem inv_readByte (hi : s.Inv) (hst : s.st = .awaitingBytes) (hf : ProgFacts s.var s.upc i) {d : RawReg}
    (hd : rawDest i = some d) {g : Stage} {k : Byte → State → State} (hk : ∀ b, CompletesRead d (k b)) :
    (s.readByte g k).Inv := by
  have hdz : s.dz = false := dz_clear hi hst hf (by simp [hd])
  have hne : i ≠ .done := by rintro rfl; cases hd
  rcases State.readByte_cases s g k with ⟨b, -, he⟩ | ⟨c, -, he⟩ <;> rw [he]
  · obtain ⟨x, hkx, hx⟩ := hk b s.requestAnswered
    rw [hkx]
    exact read_inv hi hst hf hd hne rfl rfl rfl hi.whvClear rfl rfl rfl rfl rfl rfl hx
  · exact abort_inv g c hdz

/-- A read of two bytes keeps the invariant, whatever the two requests are answered. -/
theorem inv_readWord (hi : s.Inv) (hst : s.st = .awaitingBytes) (hf : ProgFacts s.var s.upc i) {d : RawReg}
    (hd : rawDest i = some d) {g : Stage} {k : RawWord → State → State} (hk : ∀ w, CompletesRead d (k w)) :
    (s.readWord g k).Inv := by
  have hdz : s.dz = false := dz_clear hi hst hf (by simp [hd])
  have hne : i ≠ .done := by rintro rfl; cases hd
  rcases State.readWord_cases s g k with ⟨b0, b1, -, -, he⟩ | ⟨c, -, he⟩ | ⟨b0, c, -, -, he⟩ <;> rw [he]
  · obtain ⟨x, hkx, hx⟩ := hk (bigEndian b0 b1) (s.requestAnswered.latchHigh b0).requestAnswered.releaseHigh
    rw [hkx]
    exact read_inv hi hst hf hd hne rfl rfl rfl rfl rfl rfl rfl rfl rfl rfl hx
  · exact abort_inv g c hdz
  · exact abort_inv g c hdz

/-- A scaler micro-operation other than FREQ keeps the invariant if it writes what belongs into its output. -/
theorem inv_writeOut_advance (hi : s.Inv) (hst : s.st = .awaitingBytes) (hf : ProgFacts s.var s.upc i) {d : OutReg}
    (hd : outDest i = some d) (hfrq : d ≠ .frq) {v : Pattern} (hv : v = outputOf s.x d) :
    (s.writeOut d v).advance.Inv :=
  have hne : i ≠ .done := by rintro rfl; cases hd
  scale_inv hi hst hf hd hne rfl rfl rfl rfl rfl rfl rfl rfl rfl rfl hv (by rw [if_neg hfrq]; rfl)

/-- FREQ keeps the invariant: on zero ticks it writes `+INF` and raises `DZ`, on others the reciprocal of `IVS`, which
holds the interval of these ticks, and `DZ` is still clear. -/
theorem inv_freq (hi : s.Inv) (hst : s.st = .awaitingBytes) (hf : ProgFacts s.var s.upc .freq)
    (h : execFreq s = .next t) : t.Inv := by
  obtain ⟨-, -, ⟨hticks, rfl⟩ | ⟨hticks, hivs, rfl⟩⟩ := execFreq_next.1 h
  · have hz : s.x.ivt.bits = 0 := BitVec.eq_of_toNat_eq hticks
    exact scale_inv hi hst hf rfl nofun rfl rfl rfl rfl rfl rfl rfl rfl rfl rfl (by simp [outputOf, hz]) (by simp [hz])
  · have hv : s.y.ivs.bits = intervalSeconds s.x.ivt.bits.toNat := hi.scaled .ivs hivs
    have hnz : (s.x.ivt.bits == 0) = false := beq_eq_false_iff_ne.2 fun e => hticks (by simp [e])
    have hfrq : s.y.frq.valid = false := (hi.busyOut hst .frq).trans (hf.frqLast nofun)
    have hdz : s.dz = false := by simp [hi.zeroTicks, hfrq]
    exact scale_inv hi hst hf rfl nofun rfl rfl rfl rfl rfl rfl rfl rfl rfl rfl (by simp [outputOf, hticks, hv])
      (hdz.trans hnz.symm)

theorem exec_keeps_inv (hi : s.Inv) (hst : s.st = .awaitingBytes) (hf : ProgFacts s.var s.upc i)
    (h : exec i s = .next t) : t.Inv := by
  cases i <;> simp only [exec] at h
  case txb b =>
    obtain ⟨-, -, rfl⟩ := execTxb_next.1 h
    exact inv_txWrite_advance hi hst hf
  case rdu8 rd =>
    obtain ⟨-, rfl⟩ := execRdu8_next.1 h
    exact inv_readByte hi hst hf rfl (completesRead_writeU8 rd)
  case rdu16 rd =>
    obtain ⟨-, rfl⟩ := execRdu16_next.1 h
    exact inv_readWord hi hst hf rfl (completesRead_writeU16 rd)
  case rdi16 rd =>
    obtain ⟨-, rfl⟩ := execRdi16_next.1 h
    exact inv_readWord hi hst hf rfl (completesRead_writeI16 rd)
  case scacc a =>
    obtain ⟨-, -, rfl⟩ := execScacc_next.1 h
    exact inv_writeOut_advance hi hst hf rfl (by cases a <;> nofun) (by cases a <;> rfl)
  case scgyr a =>
    obtain ⟨-, -, rfl⟩ := execScgyr_next.1 h
    exact inv_writeOut_advance hi hst hf rfl (by cases a <;> nofun) (by cases a <;> rfl)
  case fxalt =>
    obtain ⟨-, -, -, rfl⟩ := execFxalt_next.1 h
    exact inv_writeOut_advance hi hst hf rfl nofun rfl
  case fxtmp =>
    obtain ⟨-, -, -, rfl⟩ := execFxtmp_next.1 h
    exact inv_writeOut_advance hi hst hf rfl nofun rfl
  case ivsec =>
    obtain ⟨-, -, rfl⟩ := execIvsec_next.1 h
    exact inv_writeOut_advance hi hst hf rfl nofun rfl
  case freq => exact inv_freq hi hst hf h
  case done =>
    obtain ⟨-, rfl⟩ := execDone_next.1 h
    exact inv_finish hi hst (hf.atDone rfl)
  case start => exact absurd rfl hf.notStart

end

/-- Settles O4: the sequencer's micro-operations keep the invariant by what the microprogram holds at `UPC`, START
establishes it anew, a reset gives the reset state's, and the other host accesses leave alone what it speaks of. -/
theorem everyStepKeepsTheInvariant : Obligations.EveryStepKeepsTheInvariant := by
  intro s t hi h
  have hi' : s.turnTaken.Inv := inv_turnTaken hi
  obtain ⟨-, -, rfl⟩ | ⟨-, hst, i, hrom, hexec⟩ | ⟨v, -, rfl⟩ | ⟨v, -, -, hexec⟩ | ⟨n, v, -, -, -, rfl⟩ |
    ⟨n, v, -, -, rfl⟩ | ⟨-, rfl⟩ := step_cases h
  · exact hi'
  · have hf := progFacts (hi.busyPlace hst) (romInstr_eq_some.2 hrom)
    exact exec_keeps_inv hi' hst hf hexec
  · exact inv_congr hi' rfl rfl rfl rfl rfl rfl rfl rfl rfl rfl fun _ => rfl
  · obtain ⟨-, hcfg, rfl⟩ := execStart_next.1 hexec
    exact begin_inv hcfg
  · exact hi'
  · exact inv_congr hi' rfl rfl rfl rfl rfl rfl rfl rfl rfl rfl id
  · exact inv_resetBlock s.turnTaken

/-! ### The sequencer never stops -/

section
variable {s t : State} {i : Instr}

/-- A micro-operation completes when its immediate is legal and every register it reads is valid. -/
theorem exec_completes (hst : s.st = .awaitingBytes) (hstart : i ≠ .start)
    (himm : ∀ b, i = .txb b → triggerBytes.contains b = true) (hraw : ∀ r ∈ rawNeeds i, s.x.valid r = true)
    (hivs : i = .freq → s.y.ivs.valid = true) : ∃ t, exec i s = .next t := by
  cases i
  case txb b => exact ⟨_, execTxb_next.2 ⟨hst, himm b rfl, rfl⟩⟩
  case rdu8 => exact ⟨_, execRdu8_next.2 ⟨hst, rfl⟩⟩
  case rdu16 => exact ⟨_, execRdu16_next.2 ⟨hst, rfl⟩⟩
  case rdi16 => exact ⟨_, execRdi16_next.2 ⟨hst, rfl⟩⟩
  case scacc a => exact ⟨_, execScacc_next.2 ⟨hst, hraw (.i16 (accSource a)) (by simp [rawNeeds]), rfl⟩⟩
  case scgyr a => exact ⟨_, execScgyr_next.2 ⟨hst, hraw (.i16 (gyrSource a)) (by simp [rawNeeds]), rfl⟩⟩
  case fxalt =>
    exact ⟨_, execFxalt_next.2 ⟨hst, hraw (.u16 .altc) (by simp [rawNeeds]), hraw (.u8 .altf) (by simp [rawNeeds]), rfl⟩⟩
  case fxtmp =>
    exact ⟨_, execFxtmp_next.2 ⟨hst, hraw (.u8 .tmpc) (by simp [rawNeeds]), hraw (.u8 .tmpf) (by simp [rawNeeds]), rfl⟩⟩
  case ivsec => exact ⟨_, execIvsec_next.2 ⟨hst, hraw (.u16 .ivt) (by simp [rawNeeds]), rfl⟩⟩
  case freq =>
    have hivt : s.x.ivt.valid = true := hraw (.u16 .ivt) (by simp [rawNeeds])
    by_cases hticks : s.x.ivt.bits.toNat = 0
    · exact ⟨_, execFreq_next.2 ⟨hst, hivt, .inl ⟨hticks, rfl⟩⟩⟩
    · exact ⟨_, execFreq_next.2 ⟨hst, hivt, .inr ⟨hticks, hivs rfl, rfl⟩⟩⟩
  case done => exact ⟨_, execDone_next.2 ⟨hst, rfl⟩⟩
  case start => exact absurd rfl hstart

end

/-- Settles O5: the ROM word at `UPC` is legal, and the registers it reads are among those the cycle has written. -/
theorem sequencerNeverStops : Obligations.SequencerNeverStops := by
  intro s hi hturn
  cases hst : s.st with
  | idle => exact ⟨_, step_idle hturn hst⟩
  | awaitingBytes =>
    obtain ⟨i, hrom⟩ := romInstr_of_inProgram (hi.busyPlace hst)
    have hf := progFacts (hi.busyPlace hst) hrom
    rw [step_fetch hturn hst hrom]
    exact exec_completes hst hf.notStart hf.trigger (fun r hr => (hi.busyRaw hst r).trans (hf.needs r hr))
      fun hfreq => (hi.busyOut hst .ivs).trans (hf.freqNeeds hfreq)

end Sys2Proof.Machine
end

section
/-! Agreement (10_state.md R44, R45; 93_implementation_defined.md U11): every step keeps it, and START establishes it. The
operations the steps are made of keep it one by one. -/

namespace Sys2Proof.Machine

section
variable {s t : State}

theorem Reg.Agree.refl {w : Nat} (a : Reg w) : a.Agree a := ⟨rfl, fun _ => rfl⟩

/-! ### Updates of the state -/

theorem agree_turnTaken (h : s.Agree t) : s.turnTaken.Agree t.turnTaken :=
  { h with turns := congrArg List.tail h.turns }

theorem agree_advance (h : s.Agree t) : s.advance.Agree t.advance :=
  { h with upc := fun hst => congrArg (· + 1) (h.upc hst) }

theorem agree_writeU8 (h : s.Agree t) (rd : U8Reg) (b : Byte) : (s.writeU8 rd b).Agree (t.writeU8 rd b) :=
  { h with
    i16 := fun r => by simpa using h.i16 r
    u16 := fun r => by simpa using h.u16 r
    u8 := fun r => by
      simp only [State.writeU8_x, RawFile.getU8_setU8]
      split
      · exact .refl _
      · exact h.u8 r }

theorem agree_writeU16 (h : s.Agree t) (rd : U16Reg) (w : RawWord) : (s.writeU16 rd w).Agree (t.writeU16 rd w) :=
  { h with
    i16 := fun r => by simpa using h.i16 r
    u16 := fun r => by
      simp only [State.writeU16_x, RawFile.getU16_setU16]
      split
      · exact .refl _
      · exact h.u16 r
    u8 := fun r => by simpa using h.u8 r }

theorem agree_writeI16 (h : s.Agree t) (rd : I16Reg) (w : RawWord) : (s.writeI16 rd w).Agree (t.writeI16 rd w) :=
  { h with
    i16 := fun r => by
      simp only [State.writeI16_x, RawFile.getI16_setI16]
      split
      · exact .refl _
      · exact h.i16 r
    u16 := fun r => by simpa using h.u16 r
    u8 := fun r => by simpa using h.u8 r }

theorem agree_emit (h : s.Agree t) (e : Event) : (s.emit e).Agree (t.emit e) :=
  { h with events := congrArg (· ++ [e]) h.events }

theorem agree_finish (h : s.Agree t) : s.finish.Agree t.finish :=
  { h with
    st := rfl
    upc := nofun
    var := nofun
    kind := rfl
    events := congrArg (· ++ [Event.result .ok]) h.events }

theorem agree_raiseDz (h : s.Agree t) : s.raiseDz.Agree t.raiseDz :=
  { h with dz := rfl }

theorem agree_writeConfig (h : s.Agree t) (v : Byte) : (s.writeConfig v).Agree (t.writeConfig v) :=
  { h with
    cfgWritten := rfl
    cfgVariant := fun _ => rfl }

theorem agree_readData (h : s.Agree t) (d : Nat × BitVec 64) :
    State.Agree { s with readData := s.readData ++ [d] } { t with readData := t.readData ++ [d] } :=
  { h with readData := congrArg (· ++ [d]) h.readData }

theorem agree_resetBlock (h : s.Agree t) : s.resetBlock.Agree t.resetBlock where
  st := rfl
  upc := nofun
  var := nofun
  i16 := fun _ => .refl _
  u16 := fun _ => .refl _
  u8 := fun _ => .refl _
  whv := rfl
  y := fun _ => .refl _
  kind := rfl
  stage := rfl
  cause := rfl
  dz := rfl
  cfgWritten := rfl
  cfgVariant := fun _ => rfl
  rx := h.rx
  rxCount := h.rxCount
  events := h.events
  readData := h.readData
  turns := h.turns

/-! ### Instructions -/

/-- START writes the same state over two blocks with the same CFG, or is refused by both for the same reason. -/
theorem execStart_agree (h : s.Agree t) : OutcomesAgree (execStart s) (execStart t) := by
  unfold execStart
  rw [← h.st, ← h.cfgWritten]
  cases s.st with
  | awaitingBytes => rfl
  | idle =>
    by_cases hcfg : s.cfgWritten = true
    · rw [if_pos hcfg, if_pos hcfg]
      exact agree_begin (h.cfgVariant hcfg) h.cfgWritten h.rx h.rxCount h.events h.readData h.turns
    · rw [if_neg hcfg, if_neg hcfg]
      rfl

/-- FREQ branches on the ticks, which agree when `IVT` is valid. -/
theorem execFreq_agree (h : s.Agree t) : OutcomesAgree (execFreq s) (execFreq t) := by
  refine agree_inCycle h fun hst => agree_u16 h .ivt _ _ fun ticks => ?_
  by_cases hticks : ticks = 0
  · simp only [if_pos hticks, State.flagTicks]
    exact agree_raiseDz (agree_write h hst .frq _)
  · simp only [if_neg hticks, State.flagTicks]
    exact agree_out h .ivs _ _ fun v => agree_write h hst .frq _

theorem exec_agree (h : s.Agree t) (i : Instr) : OutcomesAgree (exec i s) (exec i t) := by
  cases i with
  | txb b =>
    refine agree_inCycle h fun _ => ?_
    split
    · exact agree_advance (agree_emit h (.tx b))
    · rfl
  | rdu8 rd =>
    exact agree_inCycle h fun _ => agree_readByte h _ _ fun b u v huv => agree_advance (agree_writeU8 huv rd b)
  | rdu16 rd =>
    exact agree_inCycle h fun _ => agree_readWord h _ _ fun w u v huv => agree_advance (agree_writeU16 huv rd w)
  | rdi16 rd =>
    exact agree_inCycle h fun _ => agree_readWord h _ _ fun w u v huv => agree_advance (agree_writeI16 huv rd w)
  | scacc a => exact agree_inCycle h fun hst => agree_i16 h _ _ _ fun n => agree_write h hst _ _
  | scgyr a => exact agree_inCycle h fun hst => agree_i16 h _ _ _ fun n => agree_write h hst _ _
  | fxalt =>
    exact agree_inCycle h fun hst => agree_u16 h _ _ _ fun c => agree_u8 h _ _ _ fun f => agree_write h hst _ _
  | fxtmp =>
    exact agree_inCycle h fun hst => agree_u8 h _ _ _ fun c => agree_u8 h _ _ _ fun f => agree_write h hst _ _
  | ivsec => exact agree_inCycle h fun hst => agree_u16 h _ _ _ fun n => agree_write h hst _ _
  | freq => exact execFreq_agree h
  | done => exact agree_inCycle h fun _ => agree_finish h
  | start => exact execStart_agree h

/-! ### What the host reads -/

theorem agree_status (h : s.Agree t) : s.status = t.status := by
  simp only [State.status, State.causeField, State.stageField, State.kindField, h.st, h.kind, h.stage, h.cause, h.dz]

theorem agree_readConfig (h : s.Agree t) : s.readConfig = t.readConfig := by
  unfold State.readConfig State.config
  rw [← h.cfgWritten]
  by_cases hcfg : s.cfgWritten = true
  · rw [h.cfgVariant hcfg]
  · rw [if_neg hcfg, if_neg hcfg]

theorem agree_readOutput (h : s.Agree t) (r : OutReg) : s.readOutput r = t.readOutput r := by
  obtain ⟨hvalid, hbits⟩ := h.y r
  unfold State.readOutput
  rw [← h.st, ← h.kind, ← hvalid]
  split
  · next hread => rw [hbits hread.2.2]
  · rfl

theorem agree_hostValue (h : s.Agree t) (n : Nat) : s.hostValue n = t.hostValue n := by
  unfold State.hostValue
  split
  · exact agree_readConfig h
  · rfl
  · rw [agree_status h]
  · split
    · exact agree_readOutput h _
    · rfl

theorem agree_hostRead (h : s.Agree t) (n : Nat) : OutcomesAgree (s.hostRead n) (t.hostRead n) := by
  unfold State.hostRead
  rw [← agree_hostValue h n]
  cases s.hostValue n with
  | ok v => exact agree_readData h (n, v)
  | error r => rfl

/-! ### Turns -/

/-- What is due does the same in both states: the same instruction in states that agree, or outcomes that agree. -/
inductive DueAgree : Due → Due → Prop
  | run (i : Instr) {s t : State} (h : s.Agree t) : DueAgree (.run i s) (.run i t)
  | outcome {o p : Host.Outcome State Fault Refusal} (h : OutcomesAgree o p) : DueAgree (.outcome o) (.outcome p)

theorem sequencerDue_agree (h : s.Agree t) : DueAgree s.sequencerDue t.sequencerDue := by
  unfold State.sequencerDue
  rw [← h.st]
  cases hst : s.st with
  | idle => exact .outcome h
  | awaitingBytes =>
    rw [← h.upc hst]
    cases decode (rom s.upc) with
    | ok i => exact .run i h
    | error e => exact .outcome rfl

theorem hostWriteDue_agree (h : s.Agree t) (n : Nat) (v : Byte) : DueAgree (s.hostWriteDue n v) (t.hostWriteDue n v) := by
  unfold State.hostWriteDue
  split
  · exact .outcome (agree_writeConfig h v)
  · cases decodeCtrl v with
    | some i => exact .run i h
    | none => exact .outcome h
  · exact .outcome h

theorem due_agree (h : s.Agree t) : DueAgree s.due t.due := by
  have h' := agree_turnTaken h
  unfold State.due
  rw [← h.turns]
  split
  · exact sequencerDue_agree h'
  · exact sequencerDue_agree h'
  · exact hostWriteDue_agree h' _ _
  · exact .outcome (agree_hostRead h' _)
  · exact .outcome (agree_resetBlock h')

end

/-- Settles O7: in states that agree the same thing is due, and everything that can be due keeps agreement. -/
theorem stepsKeepAgreement : Obligations.StepsKeepAgreement := by
  intro s t h
  have hdue := due_agree h
  unfold step
  generalize s.due = d, t.due = e at hdue
  cases hdue with
  | run i h' => exact exec_agree h' i
  | outcome h' => exact h'

/-- Settles O8: what START leaves is CFG, the streams and the host; it sets every other field or clears its valid bit. -/
theorem startForgetsTheLastCycle : Obligations.StartForgetsTheLastCycle := by
  intro s t hs ht hscfg htcfg hstreams hread hturns hvariant
  obtain ⟨hrx, hcount, hevents⟩ := hstreams
  exact ⟨_, _, execStart_next.2 ⟨hs, hscfg, rfl⟩, execStart_next.2 ⟨ht, htcfg, rfl⟩,
    agree_begin hvariant (hscfg.trans htcfg.symm) hrx.symm hcount.symm hevents.symm hread hturns⟩

end Sys2Proof.Machine
end

section
/-! Who writes the outcome record (10_state.md R30, R32 to R34): over all steps, `DZ`, `KIND`, `STAGE`, `CAUSE` and the
Sample change only by the sequencer's micro-operations, by START and by reset. -/

namespace Sys2Proof.Machine

section
variable {s t : State}

/-- Three ways a step can write the outcome record; every other step leaves it and the outputs alone, and a block that is
in Idle stays there. -/
theorem step_record_cases (h : step s = .next t) :
    (t.kind = s.kind ∧ t.stage = s.stage ∧ t.cause = s.cause ∧ t.dz = s.dz ∧ t.y = s.y ∧ t.st = s.st) ∨
    (s.sequencerTurn ∧ s.st = .awaitingBytes ∧ ∃ i, romInstr s.upc = some i ∧ exec i s.turnTaken = .next t) ∨
    (s.st = .idle ∧ t = s.turnTaken.beginCycle) ∨
    (s.turns.head? = some .reset ∧ t = s.turnTaken.resetBlock) := by
  obtain ⟨-, -, rfl⟩ | ⟨hturn, hst, i, hrom, hexec⟩ | ⟨v, -, rfl⟩ | ⟨v, -, -, hexec⟩ | ⟨n, v, -, -, -, rfl⟩ |
    ⟨n, v, -, -, rfl⟩ | ⟨hturn, rfl⟩ := step_cases h
  · exact .inl ⟨rfl, rfl, rfl, rfl, rfl, rfl⟩
  · exact .inr (.inl ⟨hturn, hst, i, romInstr_eq_some.2 hrom, hexec⟩)
  · exact .inl ⟨rfl, rfl, rfl, rfl, rfl, rfl⟩
  · obtain ⟨hst, -, rfl⟩ := execStart_next.1 hexec
    exact .inr (.inr (.inl ⟨hst, rfl⟩))
  · exact .inl ⟨rfl, rfl, rfl, rfl, rfl, rfl⟩
  · exact .inl ⟨rfl, rfl, rfl, rfl, rfl, rfl⟩
  · exact .inr (.inr (.inr ⟨hturn, rfl⟩))

/-- A micro-operation of the ROM changes `DZ` only if it is FREQ on zero ticks. -/
theorem exec_dz {i : Instr} (hi : i ≠ .start) (h : exec i s = .next t) :
    t.dz = s.dz ∨ (i = .freq ∧ s.x.ivt.bits = 0 ∧ t.dz = true) := by
  obtain ⟨-, -, -, ⟨-, -, -, -, -, -, hdz, -⟩ | ⟨-, rfl⟩ | ⟨g, c, -, -, -, -, -, hdz, -⟩⟩ := exec_summary hi h
  · exact hdz
  · exact .inl rfl
  · exact .inl hdz

/-- A micro-operation of the ROM changes `KIND`, `STAGE` and `CAUSE` only if it is DONE or a read that aborts. -/
theorem exec_record {i : Instr} (hi : i ≠ .start) (h : exec i s = .next t) :
    (t.kind = s.kind ∧ t.stage = s.stage ∧ t.cause = s.cause) ∨
    (i = .done ∧ t = s.finish) ∨
    (rawDest i ≠ none ∧ t.st = .idle ∧ t.kind = .failed ∧ t.cause ≠ none) := by
  obtain ⟨-, -, -, ⟨-, -, hkind, hstage, hcause, -⟩ | hdone | ⟨g, c, hread, hst, hkind, -, hcause, -⟩⟩ :=
    exec_summary hi h
  · exact .inl ⟨hkind, hstage, hcause⟩
  · exact .inr (.inl hdone)
  · exact .inr (.inr ⟨hread, hst, hkind, by simp [hcause]⟩)

theorem sample_eq_none (h : s.kind ≠ .ok) : s.sample = none :=
  if_neg fun hread => h hread.2

theorem sample_ne_none (hst : s.st = .idle) (hkind : s.kind = .ok) : s.sample ≠ none := by
  simp [State.sample, hst, hkind]

theorem sample_congr (hst : t.st = s.st) (hkind : t.kind = s.kind) (hy : t.y = s.y) : t.sample = s.sample := by
  simp only [State.sample, hst, hkind, hy]

end

/-- Settles O12: among the micro-operations FREQ alone touches `DZ`, and on zero ticks alone. -/
theorem divideByZeroFlagWriters : Obligations.DivideByZeroFlagWriters := by
  intro s t h hchange
  obtain ⟨-, -, -, hdz, -⟩ | ⟨hturn, hst, i, hrom, hexec⟩ | ⟨hst, rfl⟩ | ⟨hturn, rfl⟩ := step_record_cases h
  · exact absurd hdz hchange
  · obtain hdz | ⟨rfl, hticks, hdz⟩ := exec_dz (romInstr_ne_start hrom) hexec
    · exact absurd hdz hchange
    · exact .inl ⟨hdz, hturn, hst, hrom, hticks⟩
  · exact .inr (.inl ⟨rfl, hst, rfl⟩)
  · exact .inr (.inr ⟨rfl, hturn⟩)

/-- Settles O13: a micro-operation writes the record only as DONE or as a read that aborts. -/
theorem outcomeRecordWriters : Obligations.OutcomeRecordWriters := by
  intro s t h hreset
  obtain ⟨hkind, hstage, hcause, -⟩ | ⟨-, hst, i, hrom, hexec⟩ | ⟨hst, rfl⟩ | ⟨hturn, -⟩ := step_record_cases h
  · exact .inl ⟨hkind, hstage, hcause⟩
  · obtain hsame | ⟨rfl, rfl⟩ | ⟨hread, hidle, hkind, hcause⟩ := exec_record (romInstr_ne_start hrom) hexec
    · exact .inl hsame
    · exact .inr (.inr (.inl ⟨hst, rfl, hrom, rfl, rfl, rfl⟩))
    · exact .inr (.inr (.inr ⟨hst, hidle, hkind, hcause, i, hrom, hread⟩))
  · exact .inr (.inl ⟨hst, rfl, rfl, rfl, rfl⟩)
  · exact absurd hturn hreset

/-- Settles O14: in Idle no micro-operation runs, so only START and reset touch the outputs, and `KIND` is then None. -/
theorem sampleIsStable : Obligations.SampleIsStable := by
  intro s t h hst hkind
  obtain ⟨htkind, -, -, -, hty, htst⟩ | ⟨-, hbusy, -⟩ | ⟨-, rfl⟩ | ⟨hturn, rfl⟩ := step_record_cases h
  · exact .inl ⟨sample_congr htst htkind hty, hty, sample_ne_none hst hkind⟩
  · cases hst.symm.trans hbusy
  · exact .inr ⟨sample_eq_none nofun, .inl rfl⟩
  · exact .inr ⟨sample_eq_none nofun, .inr hturn⟩

end Sys2Proof.Machine
end

section
/-! The host registers (10_state.md R35 to R38, R45; 60_exceptions.md R191): what each returns, and what an access to it
changes. -/

namespace Sys2Proof.Machine

section
variable {s : State}

theorem hostValue_output {h : Nat} {r : OutReg} (hr : outputOfHostReg h = some r) : s.hostValue h = s.readOutput r := by
  match h with
  | 0 | 1 | 2 => cases hr
  | _ + 3 => simp only [State.hostValue, hr]

theorem hostValue_reserved {h : Nat} (hh : (3 ≤ h ∧ h ≤ 7) ∨ 18 ≤ h) : s.hostValue h = .ok 0 := by
  have hr : outputOfHostReg h = none := by
    match h with
    | 0 | 1 | 2 | 3 | 4 | 5 | 6 | 7 | _ + 18 => rfl
    | 8 | 9 | 10 | 11 | 12 | 13 | 14 | 15 | 16 | 17 => omega
  match h with
  | 0 | 1 | 2 => omega
  | _ + 3 => simp only [State.hostValue, hr]

theorem readOutput_ok {r : OutReg} (hst : s.st = .idle) (hkind : s.kind = .ok) (hvalid : (s.y.get r).valid = true) :
    s.readOutput r = .ok (s.y.get r).bits :=
  if_pos ⟨hst, hkind, hvalid⟩

theorem readOutput_refused {r : OutReg} (h : s.st = .awaitingBytes ∨ s.kind ≠ .ok ∨ (s.y.get r).valid = false) :
    s.readOutput r = .error (.outputUnreadable r) := by
  refine if_neg fun ⟨hst, hkind, hvalid⟩ => ?_
  obtain hbusy | hkind' | hinvalid := h
  · cases hst.symm.trans hbusy
  · exact hkind' hkind
  · cases hvalid.symm.trans hinvalid

theorem readConfig_ok (h : s.cfgWritten = true) :
    s.readConfig = .ok (if s.cfgVariant = .perBlock then 1 else 0) := by
  rw [State.readConfig, if_pos h, State.config]
  cases s.cfgVariant <;> rfl

theorem readConfig_refused (h : s.cfgWritten = false) : s.readConfig = .error .configUnwritten := by
  simp [State.readConfig, h]

/-- The five fields of a byte put together as STATUS is (R38). -/
theorem statusByte_fields : ∀ (dz : Bool) (cause stage kind : BitVec 2) (busy : BitVec 1),
    let b : Byte := BitVec.ofBool dz ++ cause ++ stage ++ kind ++ busy
    b.extractLsb' 0 1 = busy ∧ b.extractLsb' 1 2 = kind ∧ b.extractLsb' 3 2 = stage ∧ b.extractLsb' 5 2 = cause
      ∧ b[7] = dz := by
  decide

theorem kindField_eq : s.kindField = if s.st = .idle then s.kind.code else 0 := by
  unfold State.kindField
  cases s.st <;> rfl

theorem stageField_eq : s.stageField = if s.st = .idle ∧ s.kind = .failed then s.stage.code else 0 := by
  unfold State.stageField
  cases s.st <;> cases s.kind <;> rfl

theorem causeField_eq : s.causeField = if s.st = .idle ∧ s.kind = .failed then causeCode s.cause else 0 := by
  unfold State.causeField
  cases s.st <;> cases s.kind <;> rfl

end

/-- Settles O57: a read only adds the value it returned; a write is one to CFG, a START, or ignored. -/
theorem hostAccessFrame : Obligations.HostAccessFrame := by
  constructor
  · intro s t h hturn hstep
    rw [step_read hturn] at hstep
    obtain ⟨v, -, rfl⟩ := State.hostRead_next.1 hstep
    exact ⟨v, rfl⟩
  · intro s t h v hturn hstep
    obtain ⟨rfl, rfl⟩ | ⟨rfl, hv, rfl⟩ | ⟨-, rfl⟩ := step_write_cases hturn hstep
    · exact ⟨rfl, rfl, ⟨rfl, rfl, rfl⟩, rfl, fun hne => absurd rfl hne,
        fun _ => ⟨rfl, rfl, rfl, rfl, rfl, rfl, rfl, rfl, rfl, rfl⟩⟩
    · refine ⟨rfl, rfl, ⟨rfl, rfl, rfl⟩, rfl, fun _ => ⟨rfl, rfl⟩, fun hstart => ?_⟩
      obtain hne | hclear := hstart
      · exact absurd rfl hne
      · cases hv.symm.trans hclear
    · exact ⟨rfl, rfl, ⟨rfl, rfl, rfl⟩, rfl, fun _ => ⟨rfl, rfl⟩,
        fun _ => ⟨rfl, rfl, rfl, rfl, rfl, rfl, rfl, rfl, rfl, rfl⟩⟩

/-- Settles O1: at reset every output is unreadable and START is refused for want of a configuration. -/
theorem resetHoldsTheStatedValues : Obligations.ResetHoldsTheStatedValues := by
  refine ⟨rfl, rfl, rfl, rfl, rfl, rfl, rfl, RawFile.valid_reset, OutFile.valid_reset, readConfig_refused rfl, ?_, rfl,
    step_idle (.inl rfl) rfl⟩
  intro h r hr
  exact (hostValue_output hr).trans (readOutput_refused (.inr (.inl nofun)))

/-- Settles O22: bit 0 of the byte written decides whether START is presented. -/
theorem ctrlRegister : Obligations.CtrlRegister := by
  constructor
  · intro s v hturn
    by_cases hv : v[0] = true
    · rw [if_pos hv]
      exact step_writeCtrl_start hturn hv
    · rw [if_neg hv]
      exact step_write_ignored hturn (by decide) fun _ => by simpa using hv
  · exact fun s hturn => step_read_ok hturn rfl

/-- Settles O53: the fields stand in the byte as R38 numbers its bits, each as its own view of the state. -/
theorem statusFields : Obligations.StatusFields := by
  refine ⟨fun s => ?_, rfl, fun s hturn => step_read_ok hturn rfl⟩
  rw [← kindField_eq, ← stageField_eq, ← causeField_eq]
  exact statusByte_fields s.dz s.causeField s.stageField s.kindField s.st.code

/-- Settles O54: a write is `State.writeConfig`, and `CFGV` alone decides whether a read is answered. -/
theorem configRegister : Obligations.ConfigRegister := by
  refine ⟨?write, ?read, ?refused⟩
  case write => exact fun s v hturn => step_writeConfig hturn
  case read => exact fun s hturn hcfg => step_read_ok hturn (readConfig_ok hcfg)
  case refused => exact fun s hturn hcfg => step_read_refused hturn (readConfig_refused hcfg)

/-- Settles O55: the ranges hold no register that shows an output, and CTRL is the last one a write can reach. -/
theorem reservedHostRegisters : Obligations.ReservedHostRegisters :=
  ⟨fun _ _ hturn hh => step_read_ok hturn (hostValue_reserved hh),
    fun _ _ _ hturn hh => step_write_ignored hturn (by omega) (by omega)⟩

/-- Settles O56: the two cases are those of `State.readOutput`. -/
theorem outputRegisters : Obligations.OutputRegisters := fun _ _ _ hr hturn =>
  ⟨fun hst hkind hvalid => step_read_ok hturn ((hostValue_output hr).trans (readOutput_ok hst hkind hvalid)),
    fun hno => step_read_refused hturn ((hostValue_output hr).trans (readOutput_refused hno))⟩

end Sys2Proof.Machine
end

section
/-! The receive stream (20_memory.md R51, R52, R55): how many requests a step issues, which answers it uses up, and what a
16-bit read leaves behind when its second request fails. -/

namespace Sys2Proof.Machine

section
variable {s t : State} {i : Instr}

/-- From `s` to `t` the block has issued `k` receive requests: they used up the next `k` answers, and the record shows
these answers in the order of the stream. -/
def RequestsAnswered (k : Nat) (s t : State) : Prop :=
  t.rx = s.rx.drop k ∧ t.rxCount = s.rxCount + k
    ∧ rxAnswers t.events = rxAnswers s.events ++ (List.range k).map s.answerAt

theorem requestsAnswered_zero (h : s.SameStreams t) : RequestsAnswered 0 s t := by
  obtain ⟨hrx, hcount, hevents⟩ := h
  exact ⟨hrx, hcount, by simp [hevents]⟩

/-- The events of a step account for its requests as soon as their receive answers are the next `k` of the stream. -/
theorem requestsAnswered_of_events {k : Nat} {new : List Event} (hevents : t.events = s.events ++ new)
    (hnew : rxAnswers new = (List.range k).map s.answerAt) (hrx : t.rx = s.rx.drop k)
    (hcount : t.rxCount = s.rxCount + k) : RequestsAnswered k s t :=
  ⟨hrx, hcount, by rw [hevents, rxAnswers_append, hnew]⟩

theorem answers_one : (List.range 1).map s.answerAt = [s.nextAnswer] := by
  simp [nextAnswer_eq_answerAt]

theorem answers_two : (List.range 2).map s.answerAt = [s.nextAnswer, s.requestAnswered.nextAnswer] := by
  rw [nextAnswer_requestAnswered, nextAnswer_eq_answerAt]
  rfl

/-- A micro-operation issues no request, one, or two, whether it completes or aborts. -/
theorem exec_requestsAnswered (hi : i ≠ .start) (h : exec i s = .next t) : ∃ k, k ≤ 2 ∧ RequestsAnswered k s t := by
  obtain ⟨-, -, -, hadvance | hdone | habort⟩ := exec_summary hi h
  · obtain ⟨-, -, -, -, -, -, -, hnone | ⟨b, -, hevents, hrx, hcount⟩ | ⟨-, hevents, hrx, hcount⟩ |
      ⟨-, hevents, hrx, hcount⟩⟩ := hadvance
    · obtain ⟨hevents, hrx, hcount⟩ := hnone
      exact ⟨0, by decide, requestsAnswered_zero ⟨hrx, hcount, hevents⟩⟩
    · exact ⟨0, by decide, requestsAnswered_of_events hevents rfl hrx hcount⟩
    · exact ⟨1, by decide, requestsAnswered_of_events hevents answers_one.symm (by simp [hrx]) hcount⟩
    · exact ⟨2, by decide, requestsAnswered_of_events hevents answers_two.symm hrx hcount⟩
  · obtain ⟨-, rfl⟩ := hdone
    exact ⟨0, by decide, requestsAnswered_of_events s.finish_events rfl rfl rfl⟩
  · obtain ⟨g, c, -, -, -, -, -, -, ⟨hevents, hrx, hcount⟩ | ⟨hevents, hrx, hcount⟩⟩ := habort
    · exact ⟨1, by decide, requestsAnswered_of_events hevents answers_one.symm (by simp [hrx]) hcount⟩
    · exact ⟨2, by decide, requestsAnswered_of_events hevents answers_two.symm hrx hcount⟩

/-- Only the sequencer's micro-operations touch the streams: the host, reset and waiting leave them alone. -/
theorem step_streams_cases (h : step s = .next t) :
    s.SameStreams t ∨ ∃ i, i ≠ .start ∧ exec i s.turnTaken = .next t := by
  obtain ⟨-, -, rfl⟩ | ⟨-, -, i, hrom, hexec⟩ | ⟨v, -, rfl⟩ | ⟨v, -, -, hexec⟩ | ⟨n, v, -, -, -, rfl⟩ |
    ⟨n, v, -, -, rfl⟩ | ⟨-, rfl⟩ := step_cases h
  · exact .inl ⟨rfl, rfl, rfl⟩
  · exact .inr ⟨i, romInstr_ne_start (romInstr_eq_some.2 hrom), hexec⟩
  · exact .inl ⟨rfl, rfl, rfl⟩
  · obtain ⟨-, -, rfl⟩ := execStart_next.1 hexec
    exact .inl ⟨rfl, rfl, rfl⟩
  · exact .inl ⟨rfl, rfl, rfl⟩
  · exact .inl ⟨rfl, rfl, rfl⟩
  · exact .inl ⟨rfl, rfl, rfl⟩

/-! ### A 16-bit read (R55) -/

@[simp] theorem RawFile.value_invalidate (f : RawFile) (r : RawReg) : f.invalidate.value r = f.value r := by
  rcases r with r | r | r <;> simp [RawFile.value]

/-- An instruction that writes a 16-bit raw register is a read of two bytes. -/
theorem exec_eq_readWord {d : RawReg} (hd : rawDest i = some d) (hword : ∀ r, d ≠ .u8 r)
    (hst : s.st = .awaitingBytes) : ∃ g k, exec i s = .next (s.readWord g k) := by
  cases i <;> cases hd
  case rdu8 rd => exact absurd rfl (hword rd)
  case rdu16 rd => exact ⟨_, _, State.inCycle_awaiting hst⟩
  case rdi16 rd => exact ⟨_, _, State.inCycle_awaiting hst⟩

end

/-- Settles O11: taking the turn off the list leaves the streams alone, and a micro-operation issues at most two
requests. -/
theorem requestsFollowTheStream : Obligations.RequestsFollowTheStream := by
  intro s t h
  obtain hsame | ⟨i, hi, hexec⟩ := step_streams_cases h
  · exact ⟨0, by decide, requestsAnswered_zero hsame⟩
  · exact exec_requestsAnswered (s := s.turnTaken) hi hexec

/-- Settles O35: the second request aborts the read, after the first byte has gone no further than `WH`. -/
theorem partialReadPropagates : Obligations.PartialReadPropagates := by
  intro i d s b0 c hd hword hst hfirst hsecond
  obtain ⟨g, k, hexec⟩ := exec_eq_readWord hd hword hst
  rw [State.readWord_abort_second hfirst hsecond] at hexec
  refine ⟨_, g, hexec, rfl, rfl, rfl, rfl, fun r => ⟨RawFile.valid_invalidate _ r, RawFile.value_invalidate _ r⟩,
    fun r => by simp, rfl, tail_tail_eq_drop s.rx, ?_⟩
  simp [hfirst]

end Sys2Proof.Machine
end

section
/-! The length of a cycle (20_memory.md R65): every micro-operation either ends the cycle or brings `UPC` nearer to the
variant's DONE. -/

namespace Sys2Proof.Machine

section
variable {s t : State}

/-- The micro-operations between `UPC` and the DONE of the cycle's variant. -/
def State.opsToDone (s : State) : Nat := (doneAddress s.var).toNat - s.upc.toNat

theorem inProgram_iff {v : Variant} {a : RomAddress} :
    inProgram v a = true ↔ (entryAddress v).toNat ≤ a.toNat ∧ a.toNat ≤ (doneAddress v).toNat := by
  simp [inProgram]

/-- The longer microprogram, variant 1's, holds 22 micro-operations before its DONE. -/
theorem opsToDone_le (h : inProgram s.var s.upc = true) : s.opsToDone ≤ 22 := by
  have hlength : ∀ v, (doneAddress v).toNat ≤ (entryAddress v).toNat + 22 := by intro v; cases v <;> decide
  have hentry := (inProgram_iff.1 h).1
  have := hlength s.var
  unfold State.opsToDone
  omega

theorem opsToDone_advance (h : inProgram s.var s.upc = true) (hnext : inProgram t.var t.upc = true)
    (hvar : t.var = s.var) (hupc : t.upc = s.upc + 1) : t.opsToDone < s.opsToDone := by
  have hdone : (doneAddress s.var).toNat ≤ 53 := by cases s.var <;> decide
  rw [inProgram_iff] at h hnext
  rw [hvar, hupc] at hnext
  simp only [State.opsToDone, hvar, hupc]
  have : (s.upc + 1).toNat = s.upc.toNat + 1 := by bv_omega
  omega

/-- A cycle no host access disturbs goes on: its next step ends it with an outcome on record, or comes nearer to DONE. -/
theorem step_ends_or_advances (hi : s.Inv) (hst : s.st = .awaitingBytes) (hturns : s.turns = []) :
    ∃ t, step s = .next t ∧ ((t.st = .idle ∧ t.kind ≠ .none) ∨
      (t.Inv ∧ t.st = .awaitingBytes ∧ t.turns = [] ∧ t.opsToDone < s.opsToDone)) := by
  have hturn : s.sequencerTurn := .inl (by simp [hturns])
  obtain ⟨t, hstep⟩ := sequencerNeverStops s hi hturn
  obtain ⟨i, hrom⟩ := romInstr_of_inProgram (hi.busyPlace hst)
  have hexec : exec i s.turnTaken = .next t := (step_fetch hturn hst hrom).symm.trans hstep
  refine ⟨t, hstep, ?_⟩
  obtain ⟨-, hturns', hvar, hadvance | ⟨-, rfl⟩ | ⟨g, c, -, htst, hkind, -⟩⟩ :=
    exec_summary (romInstr_ne_start hrom) hexec
  · obtain ⟨htst, hupc, -⟩ := hadvance
    have hti : t.Inv := everyStepKeepsTheInvariant s t hi hstep
    exact .inr ⟨hti, htst, by simp [hturns', hturns],
      opsToDone_advance (hi.busyPlace hst) (hti.busyPlace htst) hvar hupc⟩
  · exact .inl ⟨rfl, nofun⟩
  · exact .inl ⟨htst, by simp [hkind]⟩

theorem run_succ {k : Nat} (h : step s = .next t) : core.run (k + 1) s = core.run k t := by
  have h' : core.step s = .next t := h
  simp only [Host.Core.run, h']

/-- A cycle ends at the latest with the DONE it is heading for. -/
theorem cycle_ends (hi : s.Inv) (hst : s.st = .awaitingBytes) (hturns : s.turns = []) :
    ∃ k t, k ≤ s.opsToDone + 1 ∧ core.run k s = .next t ∧ t.st = .idle ∧ t.kind ≠ .none := by
  induction hops : s.opsToDone using Nat.strong_induction_on generalizing s with
  | h n ih =>
    obtain ⟨u, hstep, hended | ⟨hui, hust, huturns, hless⟩⟩ := step_ends_or_advances hi hst hturns
    · exact ⟨1, u, by omega, run_succ hstep, hended⟩
    · obtain ⟨k, t, hk, hrun, hended⟩ := ih _ (hops ▸ hless) hui hust huturns rfl
      exact ⟨k + 1, t, by omega, (run_succ hstep).trans hrun, hended⟩

end

/-- Settles O6: variant 1's microprogram is the longer one, 22 micro-operations and its DONE. -/
theorem everyCycleEnds : Obligations.EveryCycleEnds := by
  intro s hi hst hturns
  have hlength : s.opsToDone ≤ 22 := opsToDone_le (hi.busyPlace hst)
  obtain ⟨n, t, hn, hended⟩ := cycle_ends hi hst hturns
  exact ⟨n, t, by omega, hended⟩

end Sys2Proof.Machine
end

section
/-! The words of the opcode map (30_encoding.md R82, R87): decoding undoes encoding, and a word that decodes is the encoding
of what it decodes to. -/

namespace Sys2Proof.Machine

section
variable {w : MicroWord} {i : Instr}

theorem microWord_eq_of_fields {op r : BitVec 4} {m : Byte} (hop : (opField w).toNat = op.toNat) (hr : regField w = r)
    (hm : immField w = m) : microWord op r m = w := by
  rw [← BitVec.eq_of_toNat_eq hop, ← hr, ← hm, microWord_fields]

theorem decodeReg_microWord {α : Type} {ofIndex : BitVec 4 → Option α} {k : α → Instr} {op r : BitVec 4} {a : α}
    (h : ofIndex r = some a) : decodeReg (microWord op r 0) ofIndex k = .ok (k a) :=
  decodeReg_ok.2 ⟨a, by rw [regField_microWord, h], immField_microWord op r 0, rfl⟩

theorem decodePlain_microWord (op : BitVec 4) : decodePlain (microWord op 0 0) i = .ok i :=
  decodePlain_ok.2 ⟨regField_microWord op 0 0, immField_microWord op 0 0, rfl⟩

theorem decodeTxb_microWord {op : BitVec 4} {imm : Byte} (h : triggerBytes.contains imm = true) :
    decodeTxb (microWord op 0 imm) = .ok (.txb imm) := by
  have himm : immField (microWord op 0 imm) = imm := immField_microWord op 0 imm
  exact decodeTxb_ok.2 ⟨regField_microWord op 0 imm, himm.symm ▸ h, himm.symm ▸ rfl⟩

/-- The decoder goes by the opcode field of the word it is given. -/
theorem decode_of_encode (h : encode i = .rom w) (hi : i.wellFormed = true) : decode w = .ok i := by
  cases i <;> cases h <;> simp only [decode, opField_microWord]
  case txb => exact decodeTxb_microWord hi
  case rdu8 => exact decodeReg_microWord (U8Reg.ofIndex_eq.2 rfl)
  case rdu16 => exact decodeReg_microWord (U16Reg.ofIndex_eq.2 rfl)
  case rdi16 => exact decodeReg_microWord (I16Reg.ofIndex_eq.2 rfl)
  case scacc => exact decodeReg_microWord (Axis.ofIndex_eq.2 rfl)
  case scgyr => exact decodeReg_microWord (Axis.ofIndex_eq.2 rfl)
  all_goals exact decodePlain_microWord _

/-! Accepting a word fixes all three of its fields, so they are those of the instruction's encoding. -/

theorem encode_of_decodeTxb (hop : (opField w).toNat = 1) (h : decodeTxb w = .ok i) :
    encode i = .rom w ∧ i.wellFormed = true := by
  obtain ⟨hreg, himm, rfl⟩ := decodeTxb_ok.1 h
  exact ⟨congrArg Encoding.rom (microWord_eq_of_fields hop hreg rfl), himm⟩

theorem encode_of_decodeReg {α : Type} {index : α → BitVec 4} {ofIndex : BitVec 4 → Option α} {k : α → Instr}
    {op : BitVec 4} (hindex : ∀ {r a}, ofIndex r = some a ↔ r = index a)
    (hk : ∀ a, encode (k a) = .rom (microWord op (index a) 0) ∧ (k a).wellFormed = true)
    (hop : (opField w).toNat = op.toNat) (h : decodeReg w ofIndex k = .ok i) :
    encode i = .rom w ∧ i.wellFormed = true := by
  obtain ⟨a, ha, himm, rfl⟩ := decodeReg_ok.1 h
  rw [← microWord_eq_of_fields hop (hindex.1 ha) himm]
  exact hk a

theorem encode_of_decodePlain {j : Instr} {op : BitVec 4}
    (hj : encode j = .rom (microWord op 0 0) ∧ j.wellFormed = true) (hop : (opField w).toNat = op.toNat)
    (h : decodePlain w j = .ok i) : encode i = .rom w ∧ i.wellFormed = true := by
  obtain ⟨hreg, himm, rfl⟩ := decodePlain_ok.1 h
  rw [← microWord_eq_of_fields hop hreg himm]
  exact hj

theorem encode_of_decode (h : decode w = .ok i) : encode i = .rom w ∧ i.wellFormed = true := by
  unfold decode at h
  split at h
  next hop => exact encode_of_decodeTxb hop h
  next hop => exact encode_of_decodeReg (op := 0x2) U8Reg.ofIndex_eq (fun _ => ⟨rfl, rfl⟩) hop h
  next hop => exact encode_of_decodeReg (op := 0x3) U16Reg.ofIndex_eq (fun _ => ⟨rfl, rfl⟩) hop h
  next hop => exact encode_of_decodeReg (op := 0x4) I16Reg.ofIndex_eq (fun _ => ⟨rfl, rfl⟩) hop h
  next hop => exact encode_of_decodeReg (op := 0x5) Axis.ofIndex_eq (fun _ => ⟨rfl, rfl⟩) hop h
  next hop => exact encode_of_decodeReg (op := 0x6) Axis.ofIndex_eq (fun _ => ⟨rfl, rfl⟩) hop h
  next hop => exact encode_of_decodePlain (op := 0x7) ⟨rfl, rfl⟩ hop h
  next hop => exact encode_of_decodePlain (op := 0x8) ⟨rfl, rfl⟩ hop h
  next hop => exact encode_of_decodePlain (op := 0x9) ⟨rfl, rfl⟩ hop h
  next hop => exact encode_of_decodePlain (op := 0xA) ⟨rfl, rfl⟩ hop h
  next hop => exact encode_of_decodePlain (op := 0xF) ⟨rfl, rfl⟩ hop h
  next => cases h

end

/-- Settles O16: a ROM word round-trips by its fields; START is the one instruction CTRL presents. -/
theorem decodeAndEncodeAgree : Obligations.DecodeAndEncodeAgree := by
  refine ⟨fun i hi => ?_, fun w i => encode_of_decode⟩
  match henc : encode i with
  | .rom w => rw [decodeEncoding, decode_of_encode henc hi]; rfl
  | .ctrl v => cases i <;> cases henc; rfl

end Sys2Proof.Machine
end

section
/-! Illegal words (30_encoding.md R84): the legal words are those the decoder accepts, the microprograms hold no other, and
a cycle that fetches another is refused. -/

namespace Sys2Proof.Machine

section
variable {s : State} {w : MicroWord} {i : Instr}

theorem contains_triggerBytes {b : Byte} : triggerBytes.contains b = true ↔ b = 0x41 ∨ b = 0x47 ∨ b = 0x42 := by
  simp [triggerBytes]

/-- Every instruction of the opcode map stands in the list of R82 with each of its legal operands. -/
theorem encode_mem_legalWords (h : encode i = .rom w) (hi : i.wellFormed = true) : w ∈ legalWords := by
  cases i <;> cases h
  case txb imm =>
    obtain rfl | rfl | rfl := contains_triggerBytes.1 hi <;> decide
  case rdu8 rd => cases rd <;> decide
  case rdu16 rd => cases rd <;> decide
  case rdi16 rd => cases rd <;> decide
  case scacc a => cases a <;> decide
  case scgyr a => cases a <;> decide
  all_goals decide

theorem decode_ok_iff : (∃ i, decode w = .ok i) ↔ w ∈ legalWords := by
  constructor
  · rintro ⟨i, h⟩
    obtain ⟨henc, hi⟩ := encode_of_decode h
    exact encode_mem_legalWords henc hi
  · have hlegal : legalWords.all (fun w => (decode w).isOk) = true := by decide
    intro hw
    have hok := List.all_eq_true.1 hlegal w hw
    cases hd : decode w with
    | ok i => exact ⟨i, rfl⟩
    | error e => rw [hd] at hok; cases hok

theorem decode_error_of_not_ok (h : ∀ i, decode w ≠ .ok i) : ∃ e, decode w = .error e := by
  cases hd : decode w with
  | ok i => exact absurd hd (h i)
  | error e => exact ⟨e, rfl⟩

/-- The forms of a word with a known opcode complain about its operands only. -/
theorem decodeReg_ne_opcode {α : Type} {ofIndex : BitVec 4 → Option α} {k : α → Instr} :
    decodeReg w ofIndex k ≠ .error .opcode := by
  unfold decodeReg
  split
  · nofun
  · split <;> nofun

theorem decodePlain_ne_opcode : decodePlain w i ≠ .error .opcode := by
  unfold decodePlain
  split
  · nofun
  · split <;> nofun

theorem decodeTxb_ne_opcode : decodeTxb w ≠ .error .opcode := by
  unfold decodeTxb
  split
  · nofun
  · split <;> nofun

theorem decode_error_opcode_iff :
    decode w = .error .opcode ↔ (opField w).toNat ∈ [0x0, 0xB, 0xC, 0xD, 0xE] := by
  unfold decode
  split
  case h_1 hop => simp [hop, decodeTxb_ne_opcode]
  case h_12 =>
    have hop := (opField w).isLt
    simp only [List.mem_cons, List.not_mem_nil, or_false, true_iff, imp_false] at *
    omega
  all_goals simp [*, decodeReg_ne_opcode, decodePlain_ne_opcode]

theorem immField_eq_zero (h : decode w = .ok i) (hop : (opField w).toNat ≠ 1) : immField w = 0 := by
  obtain ⟨henc, -⟩ := encode_of_decode h
  cases i <;> cases henc
  case txb imm => exact absurd (congrArg BitVec.toNat (opField_microWord 1 0 imm)) hop
  all_goals exact immField_microWord _ _ 0

theorem decode_error_register (hr : regField w ≠ 0) (hop : (opField w).toNat ∈ [0x1, 0x7, 0x8, 0x9, 0xA, 0xF]) :
    decode w = .error .register := by
  simp only [List.mem_cons, List.not_mem_nil, or_false] at hop
  obtain hop | hop | hop | hop | hop | hop := hop <;> simp only [decode, hop] <;> exact if_pos hr

/-- A cycle stops at the fetch of an illegal word. -/
theorem step_fetch_illegal (hst : s.st = .awaitingBytes) (hturn : s.sequencerTurn) {e : DecodeError}
    (hd : decode (rom s.upc) = .error e) : step s = .refused (.illegalWord e) := by
  apply step_of_due_outcome
  rw [State.due_sequencer hturn]
  simp [State.sequencerDue, hst, hd]

end

/-- Settles O17: each clause follows from what a word that decodes is the encoding of. -/
theorem illegalWordsAreRefused : Obligations.IllegalWordsAreRefused := by
  refine ⟨fun w => decode_ok_iff, fun w => decode_error_opcode_iff, ?imm, fun w => decode_error_register, ?trigger,
    ?programs, ?step⟩
  case imm =>
    intro w himm hop
    exact decode_error_of_not_ok fun i hd => himm (immField_eq_zero hd hop)
  case trigger =>
    intro w hop himm
    refine decode_error_of_not_ok fun i hd => ?_
    simp only [decode, hop] at hd
    obtain ⟨-, htrigger, -⟩ := decodeTxb_ok.1 hd
    exact himm (List.contains_iff_mem.1 htrigger)
  case programs =>
    intro v a ha
    obtain ⟨i, hrom⟩ := romInstr_of_inProgram ha
    exact decode_ok_iff.1 ⟨i, romInstr_eq_some.1 hrom⟩
  case step =>
    intro s hst hturn hw
    obtain ⟨e, hd⟩ := decode_error_of_not_ok fun i hd => hw (decode_ok_iff.1 ⟨i, hd⟩)
    exact ⟨e, step_fetch_illegal hst hturn hd⟩

/-- Settles O27: TXB itself looks whether its immediate is a trigger byte. -/
theorem txbIllegalImmediate : Obligations.TxbIllegalImmediate := by
  intro s imm hst himm
  have hcontains : ¬ triggerBytes.contains imm = true := fun h => himm (List.contains_iff_mem.1 h)
  exact (State.inCycle_awaiting hst).trans (if_neg hcontains)

end Sys2Proof.Machine
end

section
/-! The ROM and the fetch (30_encoding.md R82, R88 to R94; 41_sequencer.md R124): what its words are, and that the fetched or
presented instruction is the one a step executes. -/

namespace Sys2Proof.Machine

section
variable {w : MicroWord} {v : Byte} {i : Instr}

/-- The ROM holds each legal word, where `romAddressOf` finds it. -/
theorem rom_romAddressOf (h : w ∈ legalWords) : rom (romAddressOf w) = w := by
  have hall : legalWords.all (fun w => rom (romAddressOf w) = w) = true := by decide
  exact of_decide_eq_true (List.all_eq_true.1 hall w h)

theorem decode_of_decodeTableWord {n : Nat} (h : decodeTableWord 16 n = some i) :
    decode (BitVec.ofNat 16 n) = .ok i := by
  have htable : decodeTableWord 16 n = (decode (BitVec.ofNat 16 n)).toOption := rfl
  rw [htable] at h
  cases hd : decode (BitVec.ofNat 16 n) <;> rw [hd] at h <;> cases h
  rfl

theorem decodeCtrl_eq_some : decodeCtrl v = some i ↔ v[0] = true ∧ i = .start := by
  cases h : v[0] <;> simp [decodeCtrl, h, eq_comm (b := i)]

end

/-- Settles O18: each word is decoded by its three fields. -/
theorem wordsOfTheTableDecode : Obligations.WordsOfTheTableDecode := by
  unfold Obligations.WordsOfTheTableDecode
  decide

/-- Settles O19: the ROM is a constant, read address by address. -/
theorem romHoldsTheTwoMicroprograms : Obligations.RomHoldsTheTwoMicroprograms := by
  refine ⟨rfl, rfl, ?combined, ?perBlock, ?unused, ?pseudoCombined, ?pseudoPerBlock⟩
  case combined => decide
  case perBlock => decide
  case unused => decide
  case pseudoCombined => decide
  case pseudoPerBlock => decide

/-- Settles O20: the fetch decides what the sequencer's turn executes. -/
theorem stepExecutesTheFetchedInstruction : Obligations.StepExecutesTheFetchedInstruction :=
  fun _ _ hst hturn hd => step_fetch hturn hst (romInstr_eq_some.2 hd)

/-- Settles O23: a placed ROM word is fetched from where the ROM holds it, a placed CTRL byte is the host's next write. -/
theorem placedInstructionRunsNext : Obligations.PlacedInstructionRunsNext := by
  constructor
  · intro s n i _ h
    have hd : decode (BitVec.ofNat 16 n) = .ok i := decode_of_decodeTableWord h
    have hrom : rom (romAddressOf (BitVec.ofNat 16 n)) = BitVec.ofNat 16 n := rom_romAddressOf (decode_ok_iff.1 ⟨i, hd⟩)
    have hfetch : romInstr (s.withFetchWord 16 n).upc = some i := romInstr_eq_some.2 (hrom.symm ▸ hd)
    exact ⟨hrom, step_fetch (.inr rfl) rfl hfetch⟩
  · intro s n _ h
    obtain ⟨hbit, -⟩ := decodeCtrl_eq_some.1 h
    exact step_writeCtrl_start (s := s.withFetchWord 8 n) rfl hbit

end Sys2Proof.Machine
end

section
/-! What the block sends (30_encoding.md R70; 41_sequencer.md R128): the trace only grows, and the bytes handed to TX are
trigger bytes. -/

namespace Sys2Proof.Machine

section
variable {s t : State} {i : Instr}

/-- A micro-operation sends a trigger byte, or records requests and perhaps the end of the cycle, or nothing. -/
theorem exec_events (hi : i ≠ .start) (h : exec i s = .next t) :
    ∃ new, t.events = s.events ++ new ∧ ∀ b, Event.tx b ∈ new → triggerBytes.contains b = true := by
  obtain ⟨-, -, -, hadvance | ⟨-, rfl⟩ | habort⟩ := exec_summary hi h
  · obtain ⟨-, -, -, -, -, -, -, ⟨hevents, -⟩ | ⟨b, hb, hevents, -⟩ | ⟨-, hevents, -⟩ | ⟨-, hevents, -⟩⟩ := hadvance
    · exact ⟨[], by simp [hevents], by simp⟩
    · exact ⟨_, hevents, by simpa using hb⟩
    · exact ⟨_, hevents, by simp⟩
    · exact ⟨_, hevents, by simp⟩
  · exact ⟨_, s.finish_events, by simp⟩
  · obtain ⟨g, c, -, -, -, -, -, -, ⟨hevents, -⟩ | ⟨hevents, -⟩⟩ := habort
    · exact ⟨_, hevents, by simp⟩
    · exact ⟨_, hevents, by simp⟩

end

/-- Settles O10: only a micro-operation adds to the trace, and what it sends is a trigger byte. -/
theorem onlyTriggerBytesAreSent : Obligations.OnlyTriggerBytesAreSent := by
  intro s t h
  obtain ⟨-, -, hevents⟩ | ⟨i, hi, hexec⟩ := step_streams_cases h
  · exact ⟨[], by simp [hevents], by simp⟩
  · obtain ⟨new, hevents, htrigger⟩ := exec_events hi hexec
    exact ⟨new, hevents, fun b hb => contains_triggerBytes.1 (htrigger b hb)⟩

end Sys2Proof.Machine
end

section
/-! A complete cycle (30_encoding.md R72, R73; 41_sequencer.md R129): every read finds its field of the frame next in the
stream, so at DONE the raw registers hold the frame and the outputs what belongs to it. -/

namespace Sys2Proof.Machine

/-! ### The wire layout -/

/-- The offset of a raw register's field in the frame (R72, R73). -/
def fieldOffset : RawReg → Nat
  | .i16 .ax => 0 | .i16 .ay => 2 | .i16 .az => 4 | .i16 .gx => 6 | .i16 .gy => 8 | .i16 .gz => 10
  | .u16 .altc => 12 | .u8 .altf => 14 | .u8 .tmpc => 15 | .u8 .tmpf => 16 | .u16 .ivt => 17

/-- The bytes of a raw register's field. -/
def fieldWidth : RawReg → Nat
  | .i16 _ | .u16 _ => 2
  | .u8 _ => 1

/-- The bytes a micro-operation receives. -/
def bytesOf (i : Instr) : Nat := (rawDest i).elim 0 fieldWidth

/-- The bytes a cycle of the variant has received before an address. -/
def bytesBefore (v : Variant) (a : RomAddress) : Nat := ((opsBefore v a).map bytesOf).sum

/-- The big-endian word at an offset of the frame. -/
def wordAt (bs : List Byte) (k : Nat) : RawWord := bigEndian (bs.getD k 0) (bs.getD (k + 1) 0)

/-- A raw register is valid and holds its field of the frame. -/
def HoldsField (bs : List Byte) (x : RawFile) : RawReg → Prop
  | .i16 r => x.getI16 r = .written (wordAt bs (fieldOffset (.i16 r)))
  | .u16 r => x.getU16 r = .written (wordAt bs (fieldOffset (.u16 r)))
  | .u8 r => x.getU8 r = .written (bs.getD (fieldOffset (.u8 r)) 0)

section
variable {v : Variant} {a : RomAddress} {i : Instr} {d : RawReg}

theorem opsBefore_entry (v : Variant) : opsBefore v (entryAddress v) = [] := by
  cases v <;> rfl

theorem opsBefore_next (ha : inProgram v a = true) (hnext : inProgram v (a + 1) = true) (hi : romInstr a = some i) :
    opsBefore v (a + 1) = opsBefore v a ++ [i] := by
  have hall : ∀ v a, inProgram v a = true → inProgram v (a + 1) = true →
      opsBefore v (a + 1) = opsBefore v a ++ (romInstr a).toList := by
    intro v; cases v <;> decide +kernel
  rw [hall v a ha hnext, hi]
  rfl

theorem bytesBefore_next (ha : inProgram v a = true) (hnext : inProgram v (a + 1) = true) (hi : romInstr a = some i) :
    bytesBefore v (a + 1) = bytesBefore v a + bytesOf i := by
  rw [bytesBefore, opsBefore_next ha hnext hi, List.map_append, List.sum_append]
  simp [bytesBefore]

/-- A read of the microprogram comes when exactly the fields before its own have been received. -/
theorem field_inFrame (ha : inProgram v a = true) (hi : romInstr a = some i) (hd : rawDest i = some d) :
    bytesBefore v a = fieldOffset d ∧ fieldOffset d + fieldWidth d ≤ frameLength v := by
  have hall : ∀ v a, inProgram v a = true →
      ((romInstr a).bind rawDest).all (fun d =>
        bytesBefore v a == fieldOffset d && fieldOffset d + fieldWidth d ≤ frameLength v) = true := by
    intro v; cases v <;> decide +kernel
  simpa [hi, hd] using hall v a ha

theorem bytesOf_of_rawDest (hd : rawDest i = some d) : bytesOf i = fieldWidth d := by
  simp [bytesOf, hd]

theorem bytesOf_of_no_rawDest (hd : rawDest i = none) : bytesOf i = 0 := by
  simp [bytesOf, hd]

end

/-! ### One micro-operation with the frame still to come -/

/-- The answers still to come: the frame from offset `k` on, then `rest`. -/
def frameFrom (bs : List Byte) (rest : List RxAnswer) (k : Nat) : List RxAnswer := (bs.drop k).map .byte ++ rest

theorem frameFrom_cons {bs : List Byte} {rest : List RxAnswer} {k : Nat} (hk : k < bs.length) :
    frameFrom bs rest k = .byte (bs.getD k 0) :: frameFrom bs rest (k + 1) := by
  rw [frameFrom, List.drop_eq_getElem_cons hk, ← List.getD_eq_getElem bs 0 hk]
  rfl

section
variable {bs : List Byte} {x : RawFile}

/-- Every valid raw register holds its field of the frame. -/
def FieldsHeld (bs : List Byte) (x : RawFile) : Prop := ∀ r, x.valid r = true → HoldsField bs x r

theorem fieldsHeld_invalidate (bs : List Byte) (x : RawFile) : FieldsHeld bs x.invalidate := by
  intro r hr
  rw [RawFile.valid_invalidate] at hr
  cases hr

theorem fieldsHeld_setI16 (h : FieldsHeld bs x) (rd : I16Reg) :
    FieldsHeld bs (x.setI16 rd (.written (wordAt bs (fieldOffset (.i16 rd))))) := by
  rintro (r | r | r) hr
  · by_cases e : r = rd
    · simp [HoldsField, e]
    · simpa [HoldsField, e] using h (.i16 r) (by simpa [RawFile.valid, e] using hr)
  · simpa [HoldsField] using h (.u16 r) (by simpa [RawFile.valid] using hr)
  · simpa [HoldsField] using h (.u8 r) (by simpa [RawFile.valid] using hr)

theorem fieldsHeld_setU16 (h : FieldsHeld bs x) (rd : U16Reg) :
    FieldsHeld bs (x.setU16 rd (.written (wordAt bs (fieldOffset (.u16 rd))))) := by
  rintro (r | r | r) hr
  · simpa [HoldsField] using h (.i16 r) (by simpa [RawFile.valid] using hr)
  · by_cases e : r = rd
    · simp [HoldsField, e]
    · simpa [HoldsField, e] using h (.u16 r) (by simpa [RawFile.valid, e] using hr)
  · simpa [HoldsField] using h (.u8 r) (by simpa [RawFile.valid] using hr)

theorem fieldsHeld_setU8 (h : FieldsHeld bs x) (rd : U8Reg) :
    FieldsHeld bs (x.setU8 rd (.written (bs.getD (fieldOffset (.u8 rd)) 0))) := by
  rintro (r | r | r) hr
  · simpa [HoldsField] using h (.i16 r) (by simpa [RawFile.valid] using hr)
  · simpa [HoldsField] using h (.u16 r) (by simpa [RawFile.valid] using hr)
  · by_cases e : r = rd
    · simp [HoldsField, e]
    · simpa [HoldsField, e] using h (.u8 r) (by simpa [RawFile.valid, e] using hr)

end

section
variable {s t : State} {bs : List Byte} {rest : List RxAnswer} {i : Instr} {d : RawReg} {k : Nat}

theorem nextAnswer_frameFrom (hk : k < bs.length) (hrx : s.rx = frameFrom bs rest k) :
    s.nextAnswer = .byte (bs.getD k 0) :=
  State.nextAnswer_listed (hrx.trans (frameFrom_cons hk))

theorem requestAnswered_frameFrom (hk : k < bs.length) (hrx : s.rx = frameFrom bs rest k) :
    s.requestAnswered.rx = frameFrom bs rest (k + 1) := by
  rw [State.requestAnswered_rx, hrx, frameFrom_cons hk, List.tail_cons]

/-- Two requests inside the frame receive the big-endian word that stands there. -/
theorem readWord_frameFrom {g : Stage} {κ : RawWord → State → State} (hk : k + 2 ≤ bs.length)
    (hrx : s.rx = frameFrom bs rest k) :
    ∃ u, s.readWord g κ = κ (wordAt bs k) u ∧ u.st = s.st ∧ u.x = s.x ∧ u.rx = frameFrom bs rest (k + 2) := by
  have hrx' : s.requestAnswered.rx = frameFrom bs rest (k + 1) := requestAnswered_frameFrom (by omega) hrx
  have hfirst : s.nextAnswer = .byte (bs.getD k 0) := nextAnswer_frameFrom (by omega) hrx
  have hsecond : s.requestAnswered.nextAnswer = .byte (bs.getD (k + 1) 0) := nextAnswer_frameFrom (by omega) hrx'
  refine ⟨_, State.readWord_bytes hfirst hsecond, rfl, rfl, ?_⟩
  exact requestAnswered_frameFrom (s := s.requestAnswered.latchHigh (bs.getD k 0)) (by omega) hrx'

/-- A read that finds its field next in the stream completes: it stores the field and goes on in the stream behind it. -/
theorem exec_read_frameFrom (hd : rawDest i = some d) (hlen : fieldOffset d + fieldWidth d ≤ bs.length)
    (hrx : s.rx = frameFrom bs rest (fieldOffset d)) (hx : FieldsHeld bs s.x) (h : exec i s = .next t) :
    t.st = .awaitingBytes ∧ t.rx = frameFrom bs rest (fieldOffset d + fieldWidth d) ∧ FieldsHeld bs t.x := by
  cases i <;> cases hd <;> simp only [exec] at h
  case rdu8 rd =>
    obtain ⟨hst, rfl⟩ := execRdu8_next.1 h
    rw [State.readByte_byte (nextAnswer_frameFrom hlen hrx)]
    exact ⟨hst, requestAnswered_frameFrom hlen hrx, fieldsHeld_setU8 hx rd⟩
  case rdu16 rd =>
    obtain ⟨hst, rfl⟩ := execRdu16_next.1 h
    obtain ⟨u, hu, hust, hux, hurx⟩ := readWord_frameFrom (g := u16Stage rd)
      (κ := fun w u => (u.writeU16 rd w).advance) hlen hrx
    rw [hu]
    exact ⟨hust.trans hst, hurx, fieldsHeld_setU16 (hux ▸ hx) rd⟩
  case rdi16 rd =>
    obtain ⟨hst, rfl⟩ := execRdi16_next.1 h
    obtain ⟨u, hu, hust, hux, hurx⟩ := readWord_frameFrom (g := i16Stage rd)
      (κ := fun w u => (u.writeI16 rd w).advance) hlen hrx
    rw [hu]
    exact ⟨hust.trans hst, hurx, fieldsHeld_setI16 (hux ▸ hx) rd⟩

/-- A micro-operation that is no read leaves the raw registers and the stream alone, and only DONE ends the cycle. -/
theorem exec_no_read (hi : i ≠ .start) (hd : rawDest i = none) (h : exec i s = .next t) :
    t.x = s.x ∧ t.rx = s.rx ∧ (i ≠ .done → t.st = s.st) := by
  cases i <;> simp only [exec] at h
  case txb => obtain ⟨-, -, rfl⟩ := execTxb_next.1 h; exact ⟨rfl, rfl, fun _ => rfl⟩
  case rdu8 => cases hd
  case rdu16 => cases hd
  case rdi16 => cases hd
  case scacc => obtain ⟨-, -, rfl⟩ := execScacc_next.1 h; exact ⟨rfl, rfl, fun _ => rfl⟩
  case scgyr => obtain ⟨-, -, rfl⟩ := execScgyr_next.1 h; exact ⟨rfl, rfl, fun _ => rfl⟩
  case fxalt => obtain ⟨-, -, -, rfl⟩ := execFxalt_next.1 h; exact ⟨rfl, rfl, fun _ => rfl⟩
  case fxtmp => obtain ⟨-, -, -, rfl⟩ := execFxtmp_next.1 h; exact ⟨rfl, rfl, fun _ => rfl⟩
  case ivsec => obtain ⟨-, -, rfl⟩ := execIvsec_next.1 h; exact ⟨rfl, rfl, fun _ => rfl⟩
  case freq => obtain ⟨-, -, ⟨-, rfl⟩ | ⟨-, -, rfl⟩⟩ := execFreq_next.1 h <;> exact ⟨rfl, rfl, fun _ => rfl⟩
  case done => obtain ⟨-, rfl⟩ := execDone_next.1 h; exact ⟨rfl, rfl, fun hne => absurd rfl hne⟩
  case start => exact absurd rfl hi

/-! ### From START to DONE -/

/-- A cycle no host access disturbs, with the frame's bytes to come that its microprogram has not received yet. -/
structure Receiving (bs : List Byte) (rest : List RxAnswer) (s : State) : Prop where
  inv : s.Inv
  busy : s.st = .awaitingBytes
  undisturbed : s.turns = []
  wholeFrame : bs.length = frameLength s.var
  stream : s.rx = frameFrom bs rest (bytesBefore s.var s.upc)
  fields : FieldsHeld bs s.x

theorem exec_receiving (hs : Receiving bs rest s) (hrom : romInstr s.upc = some i)
    (h : exec i s.turnTaken = .next t) :
    t.rx = frameFrom bs rest (bytesBefore s.var s.upc + bytesOf i) ∧ FieldsHeld bs t.x ∧
      (i ≠ .done → t.st = .awaitingBytes) := by
  cases hd : rawDest i with
  | none =>
    obtain ⟨htx, htrx, htst⟩ := exec_no_read (romInstr_ne_start hrom) hd h
    rw [bytesOf_of_no_rawDest hd, Nat.add_zero, htrx, htx]
    exact ⟨hs.stream, hs.fields, fun hne => (htst hne).trans hs.busy⟩
  | some d =>
    obtain ⟨hoffset, hend⟩ := field_inFrame (hs.inv.busyPlace hs.busy) hrom hd
    obtain ⟨htst, htrx, htx⟩ := exec_read_frameFrom (s := s.turnTaken) hd (hs.wholeFrame ▸ hend) (hoffset ▸ hs.stream)
      hs.fields h
    rw [bytesOf_of_rawDest hd, hoffset]
    exact ⟨htrx, htx, fun _ => htst⟩

/-- A micro-operation that leaves the cycle running goes on to the next address. -/
theorem exec_upc_of_busy (hi : i ≠ .start) (h : exec i s = .next t) (hst : t.st = .awaitingBytes) :
    t.upc = s.upc + 1 := by
  obtain ⟨-, -, -, ⟨-, hupc, -⟩ | ⟨-, rfl⟩ | ⟨g, c, -, hidle, -⟩⟩ := exec_summary hi h
  · exact hupc
  · cases hst
  · cases hst.symm.trans hidle

/-- The next step of a receiving cycle is its DONE, or the cycle goes on receiving nearer to it. -/
theorem step_receiving (hs : Receiving bs rest s) :
    ∃ t, step s = .next t ∧ t.var = s.var ∧ ((t.Inv ∧ t.st = .idle ∧ t.kind = .ok ∧ FieldsHeld bs t.x) ∨
      (Receiving bs rest t ∧ t.opsToDone < s.opsToDone)) := by
  have hplace : inProgram s.var s.upc = true := hs.inv.busyPlace hs.busy
  obtain ⟨i, hrom⟩ := romInstr_of_inProgram hplace
  have hi : i ≠ .start := romInstr_ne_start hrom
  obtain ⟨t, hstep, hnext⟩ := step_ends_or_advances hs.inv hs.busy hs.undisturbed
  have hexec : exec i s.turnTaken = .next t :=
    (step_fetch (.inl (by simp [hs.undisturbed])) hs.busy hrom).symm.trans hstep
  obtain ⟨-, -, hvar, -⟩ := exec_summary hi hexec
  obtain ⟨hrx, hx, hst⟩ := exec_receiving hs hrom hexec
  refine ⟨t, hstep, hvar, ?_⟩
  by_cases hdone : i = .done
  · subst hdone
    have hti : t.Inv := everyStepKeepsTheInvariant s t hs.inv hstep
    obtain ⟨-, rfl⟩ := execDone_next.1 hexec
    exact .inl ⟨hti, rfl, rfl, hx⟩
  · obtain ⟨hidle, -⟩ | ⟨hti, hbusy, hturns, hless⟩ := hnext
    · cases (hst hdone).symm.trans hidle
    · have hupc : t.upc = s.upc + 1 := exec_upc_of_busy (s := s.turnTaken) hi hexec hbusy
      have hnextPlace : inProgram s.var (s.upc + 1) = true := hvar ▸ hupc ▸ hti.busyPlace hbusy
      refine .inr ⟨⟨hti, hbusy, hturns, hvar ▸ hs.wholeFrame, ?_, hx⟩, hless⟩
      rw [hrx, hvar, hupc, State.turnTaken_var, bytesBefore_next hplace hnextPlace hrom]

/-- A receiving cycle completes, at the latest with the DONE it is heading for. -/
theorem receiving_completes (hs : Receiving bs rest s) :
    ∃ k t, k ≤ s.opsToDone + 1 ∧ core.run k s = .next t ∧ t.var = s.var ∧ t.Inv ∧ t.st = .idle ∧ t.kind = .ok ∧
      FieldsHeld bs t.x := by
  induction hops : s.opsToDone using Nat.strong_induction_on generalizing s with
  | h n ih =>
    obtain ⟨u, hstep, huvar, hended | ⟨hu, hless⟩⟩ := step_receiving hs
    · exact ⟨1, u, by omega, run_succ hstep, huvar, hended⟩
    · obtain ⟨k, t, hk, hrun, htvar, hended⟩ := ih _ (hops ▸ hless) hu rfl
      exact ⟨k + 1, t, by omega, (run_succ hstep).trans hrun, htvar.trans huvar, hended⟩

/-- START finds the whole frame in the stream and no register valid. -/
theorem receiving_beginCycle {v : Variant} (hlen : bs.length = frameLength v) (hs : s.ReadyFor v (bs.map .byte) rest) :
    Receiving bs rest s.turnTaken.beginCycle := by
  obtain ⟨-, hcfg, rfl, hturns, hrx⟩ := hs
  have hnone : bytesBefore s.cfgVariant (entryAddress s.cfgVariant) = 0 := by rw [bytesBefore, opsBefore_entry]; rfl
  refine ⟨begin_inv hcfg, rfl, by simp [hturns], hlen, ?_, fieldsHeld_invalidate bs s.x⟩
  exact hrx.trans (congrArg (frameFrom bs rest) hnone).symm

theorem step_readyFor {v : Variant} {answers : List RxAnswer} (hs : s.ReadyFor v answers rest) :
    step s = .next s.turnTaken.beginCycle := by
  obtain ⟨hst, hcfg, -, hturns, -⟩ := hs
  rw [step_writeCtrl_start (v := 1) (by rw [hturns]; rfl) rfl]
  exact execStart_next.2 ⟨hst, hcfg, rfl⟩

/-- After START, a cycle whose frame is all there ends Ok with every valid raw register holding its field. -/
theorem readyFor_completes {v : Variant} (hlen : bs.length = frameLength v) (hs : s.ReadyFor v (bs.map .byte) rest) :
    ∃ n t, n ≤ 24 ∧ core.run n s = .next t ∧ t.var = v ∧ t.Inv ∧ t.st = .idle ∧ t.kind = .ok ∧ FieldsHeld bs t.x := by
  have hbegin : Receiving bs rest s.turnTaken.beginCycle := receiving_beginCycle hlen hs
  have hlength : s.turnTaken.beginCycle.opsToDone ≤ 22 := opsToDone_le (hbegin.inv.busyPlace rfl)
  obtain ⟨k, t, hk, hrun, hvar, hended⟩ := receiving_completes hbegin
  have ⟨_, _, hv, _⟩ := hs
  exact ⟨k + 1, t, by omega, (run_succ (step_readyFor hs)).trans hrun, hvar.trans hv, hended⟩

end

/-! ### What is valid after DONE -/

section
variable {t : State}

theorem rawWrittenBefore_done (v : Variant) (r : RawReg) :
    rawWrittenBefore v (doneAddress v) r = (v == .combined || r != .u16 .ivt) := by
  cases v <;> rcases r with r | r | r <;> cases r <;> decide

theorem outWrittenBefore_done (v : Variant) (r : OutReg) :
    outWrittenBefore v (doneAddress v) r = (v == .combined || (r != .ivs && r != .frq)) := by
  cases v <;> cases r <;> decide

theorem raw_valid_after_ok (hi : t.Inv) (hst : t.st = .idle) (hkind : t.kind = .ok) (r : RawReg) :
    t.x.valid r = (t.var == .combined || r != .u16 .ivt) :=
  (hi.okRaw hst hkind r).trans (rawWrittenBefore_done t.var r)

theorem out_valid_after_ok (hi : t.Inv) (hst : t.st = .idle) (hkind : t.kind = .ok) (r : OutReg) :
    (t.y.get r).valid = (t.var == .combined || (r != .ivs && r != .frq)) :=
  (hi.okOut hst hkind r).trans (outWrittenBefore_done t.var r)

end

/-- Settles O59: after DONE a raw register is valid unless it is `IVT` in variant 2, and a valid one holds its field; the
invariant says which outputs are valid, and that these are the scaled values. -/
theorem completeCycleDecodesTheFrame : Obligations.CompleteCycleDecodesTheFrame := by
  intro v bs rest s hlen hs
  obtain ⟨n, t, hn, hrun, rfl, hi, hst, hkind, hx⟩ := readyFor_completes hlen hs
  have field {r} (hr : (t.var == .combined || r != .u16 .ivt) = true) : HoldsField bs t.x r :=
    hx r ((raw_valid_after_ok hi hst hkind r).trans hr)
  refine ⟨n, t, hn, hrun, hst, hkind, field (r := .i16 .ax) (by simp), field (r := .i16 .ay) (by simp),
    field (r := .i16 .az) (by simp), field (r := .i16 .gx) (by simp), field (r := .i16 .gy) (by simp),
    field (r := .i16 .gz) (by simp), field (r := .u16 .altc) (by simp), field (r := .u8 .altf) (by simp),
    field (r := .u8 .tmpc) (by simp), field (r := .u8 .tmpf) (by simp), fun hv => field (r := .u16 .ivt) (by simp [hv]),
    fun r hr => ?outputs, fun hv => ?absent⟩
  case outputs =>
    have hvalid : (t.y.get r).valid = true := by simpa [out_valid_after_ok hi hst hkind] using hr
    rw [← hi.scaled r hvalid, ← hvalid]
  case absent =>
    have hvalid := out_valid_after_ok hi hst hkind
    exact ⟨(hvalid .ivs).trans (by simp [hv]), (hvalid .frq).trans (by simp [hv])⟩

end Sys2Proof.Machine
end

section
/-! The FrameReader (40_frame_reader.md R100 to R103): what a read stores and leaves behind when its requests are answered
by bytes, the stage it aborts in when one is not, and what a completing read leaves unchanged. -/

namespace Sys2Proof.Machine

section
variable {s t : State} {d : RawReg} {g : Stage} {b0 b1 : Byte}

/-! ### The stage column of R24 -/

theorem u8Stage_eq (rd : U8Reg) : u8Stage rd = .baro := by cases rd <;> rfl

theorem u16Stage_eq (rd : U16Reg) : u16Stage rd = if rd = .altc then .baro else .interval := by cases rd <;> rfl

theorem i16Stage_eq (rd : I16Reg) : i16Stage rd = if rd = .ax ∨ rd = .ay ∨ rd = .az then .accel else .gyro := by
  cases rd <;> rfl

/-! ### A word of two bytes whose requests both succeed (R102, R103) -/

/-- The two's-complement fold of R103. -/
theorem bigEndian_toInt (b0 b1 : Byte) : (bigEndian b0 b1).toInt =
    if b0.toNat * 256 + b1.toNat < 32768 then ((b0.toNat * 256 + b1.toNat : Nat) : Int)
    else ((b0.toNat * 256 + b1.toNat : Nat) : Int) - 65536 := by
  rw [BitVec.toInt_eq_toNat_cond, bigEndian_toNat]
  split <;> split <;> omega

/-- All that a completing 16-bit read leaves behind but the value in its destination. -/
theorem readWord_completes {k : RawWord → State → State} (ht : t = s.readWord g k) (h0 : s.nextAnswer = .byte b0)
    (h1 : s.requestAnswered.nextAnswer = .byte b1) (hk : CompletesRead d (k (bigEndian b0 b1))) :
    t.x.valid d = true ∧ t.upc = s.upc + 1 ∧ s.SameControl t ∧ t.wh = b0 ∧ t.whv = false ∧ t.rx = s.rx.drop 2
      ∧ t.rxCount = s.rxCount + 2 ∧ t.events = s.events ++ [.rx (.byte b0), .rx (.byte b1)] := by
  obtain ⟨x, hkx, hx⟩ := hk (s.requestAnswered.latchHigh b0).requestAnswered.releaseHigh
  obtain rfl := ht.trans ((State.readWord_bytes h0 h1).trans hkx)
  exact ⟨(hx d).trans (if_pos rfl), rfl, ⟨rfl, rfl, rfl, rfl, rfl, rfl, rfl, rfl⟩, rfl, rfl, tail_tail_eq_drop s.rx, rfl,
    by simp [h0, h1]⟩

/-! ### The frame of a completing read (R100) -/

/-- The completion of a read changes the raw register `d` and `UPC` and nothing else. -/
def StoresOnly (d : RawReg) (k : State → State) : Prop :=
  ∀ u, ∃ x, k u = { u with x := x, upc := u.upc + 1 } ∧
    ∀ r, r ≠ d → x.valid r = u.x.valid r ∧ x.value r = u.x.value r

theorem storesOnly_writeU8 (rd : U8Reg) (b : Byte) : StoresOnly (.u8 rd) fun u => (u.writeU8 rd b).advance :=
  fun u => ⟨_, rfl, fun r hr =>
    ⟨(u.x.valid_setU8 rd r _).trans (if_neg hr), (u.x.value_setU8 rd r _).trans (if_neg hr)⟩⟩

theorem storesOnly_writeU16 (rd : U16Reg) (w : RawWord) : StoresOnly (.u16 rd) fun u => (u.writeU16 rd w).advance :=
  fun u => ⟨_, rfl, fun r hr =>
    ⟨(u.x.valid_setU16 rd r _).trans (if_neg hr), (u.x.value_setU16 rd r _).trans (if_neg hr)⟩⟩

theorem storesOnly_writeI16 (rd : I16Reg) (w : RawWord) : StoresOnly (.i16 rd) fun u => (u.writeI16 rd w).advance :=
  fun u => ⟨_, rfl, fun r hr =>
    ⟨(u.x.valid_setI16 rd r _).trans (if_neg hr), (u.x.value_setI16 rd r _).trans (if_neg hr)⟩⟩

/-- What a completing read of any width leaves as it was: its destination, `UPC`, `WH`, `WHV` and the receive stream are
all it may touch. -/
structure ReadFrame (d : RawReg) (s t : State) : Prop where
  raw : ∀ r, r ≠ d → t.x.valid r = s.x.valid r ∧ t.x.value r = s.x.value r
  outputs : t.y = s.y
  control : s.SameControl t
  host : s.SameHost t
  sent : txBytes t.events = txBytes s.events
  reported : results t.events = results s.events

theorem readByte_frame {k : Byte → State → State} (ht : t = s.readByte g k) (hbusy : t.st = .awaitingBytes)
    (hk : ∀ b, StoresOnly d (k b)) : ReadFrame d s t ∧ t.wh = s.wh ∧ t.whv = s.whv := by
  obtain ⟨b, -, he⟩ | ⟨c, -, he⟩ := State.readByte_cases s g k
  · obtain ⟨x, hkx, hx⟩ := hk b s.requestAnswered
    obtain rfl := ht.trans (he.trans hkx)
    refine ⟨⟨hx, rfl, ⟨rfl, rfl, rfl, rfl, rfl, rfl, rfl, rfl⟩, ⟨rfl, rfl, rfl, rfl⟩, ?sent, ?reported⟩, rfl, rfl⟩
    case sent => simp [txBytes_append, txBytes]
    case reported => simp [results_append, results]
  · obtain rfl := ht.trans he
    cases hbusy

theorem readWord_frame {k : RawWord → State → State} (ht : t = s.readWord g k) (hbusy : t.st = .awaitingBytes)
    (hk : ∀ w, StoresOnly d (k w)) : ReadFrame d s t := by
  obtain ⟨b0, b1, -, -, he⟩ | ⟨c, -, he⟩ | ⟨b0, c, -, -, he⟩ := State.readWord_cases s g k
  · obtain ⟨x, hkx, hx⟩ := hk (bigEndian b0 b1) (s.requestAnswered.latchHigh b0).requestAnswered.releaseHigh
    obtain rfl := ht.trans (he.trans hkx)
    refine ⟨hx, rfl, ⟨rfl, rfl, rfl, rfl, rfl, rfl, rfl, rfl⟩, ⟨rfl, rfl, rfl, rfl⟩, ?sent, ?reported⟩
    case sent => simp [txBytes_append, txBytes]
    case reported => simp [results_append, results]
  · obtain rfl := ht.trans he
    cases hbusy
  · obtain rfl := ht.trans he
    cases hbusy

end

/-- Settles O33: the stored pattern is the big-endian word, and its reader's sign is the fold of R103. -/
theorem rdi16ReadsAFoldedWord : Obligations.Rdi16ReadsAFoldedWord := by
  intro s rd hst
  rw [← i16Stage_eq]
  refine ⟨decode_of_encode (i := .rdi16 rd) rfl rfl, fun b0 b1 h0 h1 => ?_,
    fun c hc => execRdi16_next.2 ⟨hst, (State.readWord_abort_first hc).symm⟩,
    fun b0 c h0 hc => execRdi16_next.2 ⟨hst, (State.readWord_abort_second h0 hc).symm⟩⟩
  obtain ⟨hvalid, hrest⟩ := readWord_completes (g := i16Stage rd) (k := fun w u => (u.writeI16 rd w).advance)
    rfl h0 h1 (completesRead_writeI16 rd _)
  refine ⟨_, execRdi16_next.2 ⟨hst, rfl⟩, hvalid, ?_, hrest⟩
  rw [State.readWord_bytes h0 h1, ← bigEndian_toInt]
  exact (RawFile.value_setI16 ..).trans (if_pos rfl)

/-- Settles O34: an abort returns to Idle, so the read completed, and its completion stores into its destination only. -/
theorem frameReaderFrame : Obligations.FrameReaderFrame := by
  intro i d s t hd h hbusy
  cases i <;> cases hd
  case rdu8 rd =>
    obtain ⟨-, ht⟩ := execRdu8_next.1 h
    obtain ⟨hf, hwh, hwhv⟩ := readByte_frame ht hbusy (storesOnly_writeU8 rd)
    exact ⟨hf.raw, hf.outputs, fun _ => ⟨hwh, hwhv⟩, hf.control, hf.host, hf.sent, hf.reported⟩
  case rdu16 rd =>
    obtain ⟨-, ht⟩ := execRdu16_next.1 h
    have hf := readWord_frame ht hbusy (storesOnly_writeU16 rd)
    exact ⟨hf.raw, hf.outputs, nofun, hf.control, hf.host, hf.sent, hf.reported⟩
  case rdi16 rd =>
    obtain ⟨-, ht⟩ := execRdi16_next.1 h
    have hf := readWord_frame ht hbusy (storesOnly_writeI16 rd)
    exact ⟨hf.raw, hf.outputs, nofun, hf.control, hf.host, hf.sent, hf.reported⟩

/-- Settles O31: one request, answered by a byte or not. -/
theorem rdu8ReadsOneByte : Obligations.Rdu8ReadsOneByte := by
  intro s rd hst
  rw [← u8Stage_eq rd]
  refine ⟨decode_of_encode (i := .rdu8 rd) rfl rfl, fun b hb => ?_,
    fun h => execRdu8_next.2 ⟨hst, (State.readByte_abort (congrArg answerCause h)).symm⟩,
    fun h => execRdu8_next.2 ⟨hst, (State.readByte_abort (congrArg answerCause h)).symm⟩⟩
  refine ⟨_, execRdu8_next.2 ⟨hst, (State.readByte_byte hb).symm⟩, ?valid, ?value, rfl,
    ⟨rfl, rfl, rfl, rfl, rfl, rfl, rfl, rfl⟩, rfl, rfl, by simp [hb]⟩
  case valid => exact (RawFile.valid_setU8 ..).trans (if_pos rfl)
  case value => exact (RawFile.value_setU8 ..).trans (if_pos rfl)

/-- Settles O32: the stored pattern is the big-endian word, and its reader takes it as unsigned. -/
theorem rdu16ReadsABigEndianWord : Obligations.Rdu16ReadsABigEndianWord := by
  intro s rd hst
  rw [← u16Stage_eq]
  refine ⟨decode_of_encode (i := .rdu16 rd) rfl rfl, fun b0 b1 h0 h1 => ?_,
    fun c hc => execRdu16_next.2 ⟨hst, (State.readWord_abort_first hc).symm⟩,
    fun b0 c h0 hc => execRdu16_next.2 ⟨hst, (State.readWord_abort_second h0 hc).symm⟩⟩
  obtain ⟨hvalid, hrest⟩ := readWord_completes (g := u16Stage rd) (k := fun w u => (u.writeU16 rd w).advance)
    rfl h0 h1 (completesRead_writeU16 rd _)
  refine ⟨_, execRdu16_next.2 ⟨hst, rfl⟩, hvalid, ?_, hrest⟩
  rw [State.readWord_bytes h0 h1]
  refine (RawFile.value_setU16 ..).trans ((if_pos rfl).trans ?_)
  rw [Reg.written_bits, bigEndian_toNat, Nat.cast_add, Nat.cast_mul, Nat.cast_ofNat]

end Sys2Proof.Machine
end

section
/-! Whole cycles (41_sequencer.md R129, R130): from START a cycle that no host access disturbs sends the trigger bytes and
issues the requests of its variant in order, until the frame is complete or a request fails. -/

namespace Sys2Proof.Machine

/-! ### The answers of a cycle and the trace they leave -/

/-- The answers to the next `k` receive requests. -/
def State.nextAnswers (s : State) (k : Nat) : List RxAnswer := (List.range k).map s.answerAt

/-- The next `k` receive requests are all answered by bytes. -/
def BytesFirst (s : State) (k : Nat) : Prop := ∀ j < k, ∃ b, s.answerAt j = .byte b

/-- The trigger byte a cycle sends between its `k`-th request and the next one (R129, R130). -/
def triggerDue (v : Variant) (k : Nat) : List Byte :=
  if k = 0 then [0x41]
  else if v = .perBlock ∧ k = 6 then [0x47]
  else if v = .perBlock ∧ k = 12 then [0x42]
  else []

/-- `cycleEvents` without the first trigger byte while nothing has been requested. -/
def requestTrace (v : Variant) (answers : List RxAnswer) : List Event :=
  if answers = [] then [] else cycleEvents v answers

/-- `u` has been reached from `s`, before START, through `k` requests of a cycle, and has sent `sent` since the last. -/
structure Traced (v : Variant) (s : State) (k : Nat) (sent : List Byte) (u : State) : Prop where
  stream : u.rx = s.rx.drop k
  count : u.rxCount = s.rxCount + k
  trace : u.events = s.events ++ requestTrace v (s.nextAnswers k) ++ sent.map .tx

/-- What a cycle of the variant begun in `s` can end in: DONE after a whole frame of bytes, or Abort by the first request
that no byte answers, with the stage of that request. -/
inductive CycleOutcome (v : Variant) (s : State) : State → Prop
  | ok {w : State} (hbytes : BytesFirst s (frameLength v)) (htraced : Traced v s (frameLength v) [] w) :
      CycleOutcome v s w.finish
  | failed {w : State} {j : Nat} {c : Cause} (hj : j < frameLength v) (hbytes : BytesFirst s j)
      (hcause : answerCause (s.answerAt j) = some c) (htraced : Traced v s (j + 1) [] w) :
      CycleOutcome v s (w.abort (stageOfRequest (j + 1)) c)

section
variable {s t u : State} {v : Variant} {k : Nat}

theorem nextAnswers_succ : s.nextAnswers (k + 1) = s.nextAnswers k ++ [s.answerAt k] := by
  simp [State.nextAnswers, List.range_succ]

theorem length_nextAnswers : (s.nextAnswers k).length = k := by
  simp [State.nextAnswers]

theorem answerAt_listed {answers rest : List RxAnswer} (hrx : s.rx = answers ++ rest) {j : Nat}
    (hj : j < answers.length) : s.answerAt j = answers[j] := by
  simp [State.answerAt, hrx, List.getElem?_append_left hj, List.getElem?_eq_getElem hj]

theorem nextAnswers_listed {answers rest : List RxAnswer} (hrx : s.rx = answers ++ rest) :
    s.nextAnswers answers.length = answers := by
  apply List.ext_getElem length_nextAnswers
  intro j hj hj'
  simp [State.nextAnswers, answerAt_listed hrx hj']

theorem bytesFirst_succ {b : Byte} (h : BytesFirst s k) (hb : s.answerAt k = .byte b) : BytesFirst s (k + 1) := by
  intro j hj
  obtain hlt | rfl := Nat.lt_succ_iff_lt_or_eq.1 hj
  · exact h j hlt
  · exact ⟨b, hb⟩

theorem not_byte_of_cause {a : RxAnswer} {c : Cause} (hc : answerCause a = some c) : ¬ ∃ b, a = .byte b := by
  rintro ⟨b, rfl⟩
  cases hc

/-- One more request adds the trigger byte due before it and its answer. -/
theorem cycleEvents_snoc {answers : List RxAnswer} (hne : answers ≠ []) (a : RxAnswer) :
    cycleEvents v (answers ++ [a]) =
      cycleEvents v answers ++ (triggerDue v answers.length).map .tx ++ [.rx a] := by
  have hpos : 0 < answers.length := List.length_pos_iff.2 hne
  cases v with
  | combined => simp [cycleEvents, triggerDue, hne]
  | perBlock =>
    obtain h | h | h | h | h : answers.length < 6 ∨ answers.length = 6 ∨ (6 < answers.length ∧ answers.length < 12) ∨
        answers.length = 12 ∨ 12 < answers.length := by omega
    -- The length decides every test of `cycleEvents` and on which side of each cut the last answer falls.
    all_goals
      simp (disch := grind) [cycleEvents, triggerDue, if_pos, if_neg, List.take_append_of_le_length,
        List.drop_append_of_le_length, List.take_of_length_le, List.drop_eq_nil_of_le]

theorem requestTrace_snoc (answers : List RxAnswer) (a : RxAnswer) :
    requestTrace v (answers ++ [a]) =
      requestTrace v answers ++ (triggerDue v answers.length).map .tx ++ [.rx a] := by
  by_cases hne : answers = []
  · subst hne
    cases v <;> rfl
  · simpa [requestTrace, hne] using cycleEvents_snoc hne a

theorem requestTrace_eq_cycleEvents (hk : 0 < k) : requestTrace v (s.nextAnswers k) = cycleEvents v (s.nextAnswers k) :=
  if_neg (List.length_pos_iff.1 (length_nextAnswers.symm ▸ hk))

/-! ### Requests -/

theorem traced_congr {sent : List Byte} (h : Traced v s k sent u) (hsame : u.SameStreams t) : Traced v s k sent t := by
  obtain ⟨hrx, hcount, hevents⟩ := hsame
  exact ⟨hrx.trans h.stream, hcount.trans h.count, hevents.trans h.trace⟩

theorem nextAnswer_traced {sent : List Byte} (h : Traced v s k sent u) : u.nextAnswer = s.answerAt k := by
  simp [nextAnswer_eq_answerAt, State.answerAt, h.stream, h.count]

theorem traced_requestAnswered (h : Traced v s k (triggerDue v k) u) : Traced v s (k + 1) [] u.requestAnswered where
  stream := by simp [h.stream]
  count := by simp [h.count, Nat.add_assoc]
  trace := by
    rw [State.requestAnswered_events, h.trace, nextAnswer_traced h, nextAnswers_succ, requestTrace_snoc,
      length_nextAnswers]
    simp

/-- A request answered by a byte goes on behind it, any other answer ends the cycle. -/
theorem readByte_traced (h : Traced v s k (triggerDue v k) u) (hbytes : BytesFirst s k) (hk : k < frameLength v)
    (κ : Byte → State → State) :
    (∃ b, u.readByte (stageOfRequest (k + 1)) κ = κ b u.requestAnswered ∧ BytesFirst s (k + 1) ∧
      Traced v s (k + 1) [] u.requestAnswered) ∨
    CycleOutcome v s (u.readByte (stageOfRequest (k + 1)) κ) := by
  obtain ⟨b, hb, he⟩ | ⟨c, hc, he⟩ := State.readByte_cases u (stageOfRequest (k + 1)) κ
  · exact .inl ⟨b, he, bytesFirst_succ hbytes (nextAnswer_traced h ▸ hb), traced_requestAnswered h⟩
  · rw [he]
    exact .inr (.failed hk hbytes (nextAnswer_traced h ▸ hc) (traced_requestAnswered h))

/-- Two requests of one field, in one stage and with no trigger byte due between them. -/
theorem readWord_traced (h : Traced v s k (triggerDue v k) u) (hbytes : BytesFirst s k) (hk : k + 2 ≤ frameLength v)
    (hstage : stageOfRequest (k + 2) = stageOfRequest (k + 1)) (htrigger : triggerDue v (k + 1) = [])
    {κ : RawWord → State → State} (hκ : ∀ w u, (κ w u).st = u.st ∧ u.SameStreams (κ w u)) :
    ((u.readWord (stageOfRequest (k + 1)) κ).st = u.st ∧ BytesFirst s (k + 2) ∧
      Traced v s (k + 2) [] (u.readWord (stageOfRequest (k + 1)) κ)) ∨
    CycleOutcome v s (u.readWord (stageOfRequest (k + 1)) κ) := by
  unfold State.readWord
  obtain ⟨b0, he, hbytes, h⟩ | hended := readByte_traced h hbytes (by omega) _
  · have h' : Traced v s (k + 1) (triggerDue v (k + 1)) (u.requestAnswered.latchHigh b0) :=
      htrigger ▸ traced_congr h ⟨rfl, rfl, rfl⟩
    rw [he, ← hstage]
    obtain ⟨b1, he, hbytes, h⟩ | hended := readByte_traced h' hbytes (by omega) _
    · obtain ⟨hst, hsame⟩ := hκ (bigEndian b0 b1) (u.requestAnswered.latchHigh b0).requestAnswered.releaseHigh
      rw [he]
      exact .inl ⟨hst, hbytes, traced_congr h hsame⟩
    · exact .inr hended
  · exact .inr hended

end

/-! ### Micro-operations -/

/-- The byte a micro-operation sends. -/
def bytesSent : Instr → List Byte
  | .txb b => [b]
  | _ => []

/-- The byte the micro-operation before an address sends. -/
def sentBefore (a : RomAddress) : List Byte := (romInstr (a - 1)).elim [] bytesSent

section
variable {s t u : State} {v : Variant} {a : RomAddress} {i : Instr} {d : RawReg}

theorem sentBefore_next (hi : romInstr a = some i) : sentBefore (a + 1) = bytesSent i := by
  simp [sentBefore, hi]

theorem bytesSent_of_rawDest (hd : rawDest i = some d) : bytesSent i = [] := by
  cases i with
  | txb => cases hd
  | _ => rfl

/-- The microprogram sends a trigger byte just before the request it is due at. -/
theorem sentBefore_eq (ha : inProgram v a = true) (hi : romInstr a = some i) :
    sentBefore a = if rawDest i = none then [] else triggerDue v (bytesBefore v a) := by
  have hall : ∀ v a, inProgram v a = true →
      sentBefore a = if (romInstr a).bind rawDest = none then [] else triggerDue v (bytesBefore v a) := by
    intro v; cases v <;> decide +kernel
  simpa [hi] using hall v a ha

theorem bytesBefore_done (v : Variant) : bytesBefore v (doneAddress v) = frameLength v := by
  cases v <;> decide +kernel

/-- A micro-operation that is no read and does not end the cycle only sends its byte. -/
theorem exec_no_read_trace (hi : i ≠ .start) (hdone : i ≠ .done) (hd : rawDest i = none) (h : exec i s = .next t) :
    t.rxCount = s.rxCount ∧ t.events = s.events ++ (bytesSent i).map .tx := by
  cases i <;> simp only [exec] at h
  case txb => obtain ⟨-, -, rfl⟩ := execTxb_next.1 h; exact ⟨rfl, rfl⟩
  case rdu8 => cases hd
  case rdu16 => cases hd
  case rdi16 => cases hd
  case scacc => obtain ⟨-, -, rfl⟩ := execScacc_next.1 h; simp [bytesSent]
  case scgyr => obtain ⟨-, -, rfl⟩ := execScgyr_next.1 h; simp [bytesSent]
  case fxalt => obtain ⟨-, -, -, rfl⟩ := execFxalt_next.1 h; simp [bytesSent]
  case fxtmp => obtain ⟨-, -, -, rfl⟩ := execFxtmp_next.1 h; simp [bytesSent]
  case ivsec => obtain ⟨-, -, rfl⟩ := execIvsec_next.1 h; simp [bytesSent]
  case freq => obtain ⟨-, -, ⟨-, rfl⟩ | ⟨-, -, rfl⟩⟩ := execFreq_next.1 h <;> simp [bytesSent]
  case done => exact absurd rfl hdone
  case start => exact absurd rfl hi

/-! A raw register's stage is that of the requests for its field, and no trigger byte is due inside a field. -/

theorem u8Stage_eq_stageOfRequest (rd : U8Reg) : u8Stage rd = stageOfRequest (fieldOffset (.u8 rd) + 1) := by
  cases rd <;> rfl

theorem u16Stage_eq_stageOfRequest (rd : U16Reg) : u16Stage rd = stageOfRequest (fieldOffset (.u16 rd) + 1) := by
  cases rd <;> rfl

theorem i16Stage_eq_stageOfRequest (rd : I16Reg) : i16Stage rd = stageOfRequest (fieldOffset (.i16 rd) + 1) := by
  cases rd <;> rfl

theorem stageOfRequest_second (hd : fieldWidth d = 2) :
    stageOfRequest (fieldOffset d + 2) = stageOfRequest (fieldOffset d + 1) := by
  rcases d with r | r | r
  · cases r <;> rfl
  · cases r <;> rfl
  · cases hd

theorem triggerDue_second (hd : fieldWidth d = 2) : triggerDue v (fieldOffset d + 1) = [] := by
  rcases d with r | r | r
  · cases v <;> cases r <;> rfl
  · cases v <;> cases r <;> rfl
  · cases hd

/-- A read at its field of the frame receives the whole field, or ends the cycle. -/
theorem exec_read_traced (hd : rawDest i = some d) (hend : fieldOffset d + fieldWidth d ≤ frameLength v)
    (htraced : Traced v s (fieldOffset d) (triggerDue v (fieldOffset d)) u) (hbytes : BytesFirst s (fieldOffset d))
    (h : exec i u = .next t) :
    (t.st = .awaitingBytes ∧ BytesFirst s (fieldOffset d + fieldWidth d) ∧
      Traced v s (fieldOffset d + fieldWidth d) [] t) ∨
    CycleOutcome v s t := by
  cases i <;> cases hd <;> simp only [exec] at h
  case rdu8 rd =>
    obtain ⟨hst, rfl⟩ := execRdu8_next.1 h
    rw [u8Stage_eq_stageOfRequest]
    obtain ⟨b, he, hbytes, htraced⟩ | hended := readByte_traced htraced hbytes hend fun b w => (w.writeU8 rd b).advance
    · rw [he]
      exact .inl ⟨hst, hbytes, traced_congr htraced ⟨rfl, rfl, rfl⟩⟩
    · exact .inr hended
  case rdu16 rd =>
    obtain ⟨hst, rfl⟩ := execRdu16_next.1 h
    rw [u16Stage_eq_stageOfRequest, ← hst]
    exact readWord_traced htraced hbytes hend (stageOfRequest_second rfl) (triggerDue_second rfl)
      fun w u => ⟨rfl, rfl, rfl, rfl⟩
  case rdi16 rd =>
    obtain ⟨hst, rfl⟩ := execRdi16_next.1 h
    rw [i16Stage_eq_stageOfRequest, ← hst]
    exact readWord_traced htraced hbytes hend (stageOfRequest_second rfl) (triggerDue_second rfl)
      fun w u => ⟨rfl, rfl, rfl, rfl⟩

end

/-! ### From START to the end of the cycle -/

/-- `u` is in the cycle of variant `v` that START began in `s`: no host access disturbs it, and every request so far was
answered by a byte. -/
structure Cycling (v : Variant) (s u : State) : Prop where
  inv : u.Inv
  busy : u.st = .awaitingBytes
  undisturbed : u.turns = []
  variant : u.var = v
  bytes : BytesFirst s (bytesBefore v u.upc)
  traced : Traced v s (bytesBefore v u.upc) (sentBefore u.upc) u

section
variable {s t u : State} {v : Variant} {i : Instr}

/-- A micro-operation of a cycle ends it, or receives its field and sends its byte. -/
theorem exec_cycling (hu : Cycling v s u) (hrom : romInstr u.upc = some i) (h : exec i u.turnTaken = .next t) :
    CycleOutcome v s t ∨ (t.st = .awaitingBytes ∧ BytesFirst s (bytesBefore v u.upc + bytesOf i) ∧
      Traced v s (bytesBefore v u.upc + bytesOf i) (bytesSent i) t) := by
  have hplace : inProgram v u.upc = true := hu.variant ▸ hu.inv.busyPlace hu.busy
  have hsent := sentBefore_eq hplace hrom
  have htraced : Traced v s (bytesBefore v u.upc) (sentBefore u.upc) u.turnTaken :=
    traced_congr hu.traced ⟨rfl, rfl, rfl⟩
  have hbytes := hu.bytes
  cases hd : rawDest i with
  | some d =>
    obtain ⟨hoffset, hend⟩ := field_inFrame hplace hrom hd
    rw [hsent, if_neg (by simp [hd]), hoffset] at htraced
    rw [hoffset] at hbytes
    rw [bytesOf_of_rawDest hd, hoffset, bytesSent_of_rawDest hd]
    exact (exec_read_traced hd hend htraced hbytes h).symm
  | none =>
    rw [hsent, if_pos hd] at htraced
    by_cases hdone : i = .done
    · subst hdone
      obtain ⟨-, rfl⟩ := execDone_next.1 h
      have hupc : u.upc = doneAddress v := hu.variant ▸ (progFacts (hu.inv.busyPlace hu.busy) hrom).atDone rfl
      rw [hupc, bytesBefore_done] at htraced hbytes
      exact .inl (.ok hbytes htraced)
    · have hi : i ≠ .start := romInstr_ne_start hrom
      obtain ⟨-, hrx, hst⟩ := exec_no_read hi hd h
      obtain ⟨hcount, hevents⟩ := exec_no_read_trace hi hdone hd h
      rw [bytesOf_of_no_rawDest hd, Nat.add_zero]
      refine .inr ⟨(hst hdone).trans hu.busy, hbytes, hrx.trans htraced.stream, hcount.trans htraced.count, ?_⟩
      rw [hevents, htraced.trace]
      simp

/-- The next step of a cycle ends it, or the cycle goes on nearer to its DONE. -/
theorem step_cycling (hu : Cycling v s u) :
    ∃ t, step u = .next t ∧ (CycleOutcome v s t ∨ (Cycling v s t ∧ t.opsToDone < u.opsToDone)) := by
  have hplace : inProgram v u.upc = true := hu.variant ▸ hu.inv.busyPlace hu.busy
  obtain ⟨i, hrom⟩ := romInstr_of_inProgram hplace
  have hi : i ≠ .start := romInstr_ne_start hrom
  obtain ⟨t, hstep, hnext⟩ := step_ends_or_advances hu.inv hu.busy hu.undisturbed
  have hexec : exec i u.turnTaken = .next t :=
    (step_fetch (.inl (by simp [hu.undisturbed])) hu.busy hrom).symm.trans hstep
  refine ⟨t, hstep, ?_⟩
  obtain hended | ⟨hbusy, hbytes, htraced⟩ := exec_cycling hu hrom hexec
  · exact .inl hended
  · obtain ⟨hidle, -⟩ | ⟨hti, -, hturns, hless⟩ := hnext
    · cases hbusy.symm.trans hidle
    · obtain ⟨-, -, hvar, -⟩ := exec_summary hi hexec
      have hvar : t.var = v := hvar.trans hu.variant
      have hupc : t.upc = u.upc + 1 := exec_upc_of_busy (s := u.turnTaken) hi hexec hbusy
      have hnextPlace : inProgram v (u.upc + 1) = true := hvar ▸ hupc ▸ hti.busyPlace hbusy
      rw [← bytesBefore_next hplace hnextPlace hrom, ← hupc] at hbytes htraced
      rw [← sentBefore_next hrom, ← hupc] at htraced
      exact .inr ⟨⟨hti, hbusy, hturns, hvar, hbytes, htraced⟩, hless⟩

/-- A cycle ends, at the latest with the DONE it is heading for. -/
theorem cycling_ends (hu : Cycling v s u) :
    ∃ k t, k ≤ u.opsToDone + 1 ∧ core.run k u = .next t ∧ CycleOutcome v s t := by
  induction hops : u.opsToDone using Nat.strong_induction_on generalizing u with
  | h n ih =>
    obtain ⟨w, hstep, hended | ⟨hw, hless⟩⟩ := step_cycling hu
    · exact ⟨1, w, by omega, run_succ hstep, hended⟩
    · obtain ⟨k, t, hk, hrun, hended⟩ := ih _ (hops ▸ hless) hw rfl
      exact ⟨k + 1, t, by omega, (run_succ hstep).trans hrun, hended⟩

/-- START begins a cycle that has requested and sent nothing. -/
theorem cycling_beginCycle {answers rest : List RxAnswer} (hs : s.ReadyFor v answers rest) :
    Cycling v s s.turnTaken.beginCycle := by
  obtain ⟨-, hcfg, rfl, hturns, -⟩ := hs
  have hnone : bytesBefore s.cfgVariant (entryAddress s.cfgVariant) = 0 := by rw [bytesBefore, opsBefore_entry]; rfl
  have hsent : sentBefore (entryAddress s.cfgVariant) = [] := by cases s.cfgVariant <;> decide
  refine ⟨begin_inv hcfg, rfl, by simp [hturns], rfl, ?bytes, ?traced⟩
  case bytes => exact hnone ▸ fun j hj => absurd hj j.not_lt_zero
  case traced => exact hnone ▸ hsent ▸ ⟨rfl, rfl, by simp [State.nextAnswers, requestTrace]⟩

/-- R129, R130, for every stream: START is followed within 23 micro-operations by DONE or by an Abort. -/
theorem readyFor_ends {answers rest : List RxAnswer} (hs : s.ReadyFor v answers rest) :
    ∃ n t, n ≤ 24 ∧ core.run n s = .next t ∧ CycleOutcome v s t := by
  have hbegin : Cycling v s s.turnTaken.beginCycle := cycling_beginCycle hs
  have hlength : s.turnTaken.beginCycle.opsToDone ≤ 22 := opsToDone_le (hbegin.inv.busyPlace rfl)
  obtain ⟨k, t, hk, hrun, hended⟩ := cycling_ends hbegin
  exact ⟨k + 1, t, by omega, (run_succ (step_readyFor hs)).trans hrun, hended⟩

end

theorem bytesFirst_listed {s : State} {bs : List Byte} {rest : List RxAnswer} (hrx : s.rx = bs.map .byte ++ rest) :
    BytesFirst s bs.length := fun j hj =>
  ⟨bs[j], (answerAt_listed hrx (by simpa using hj)).trans (by simp)⟩

theorem frameLength_pos (v : Variant) : 0 < frameLength v := by cases v <;> decide

/-- Settles O58: no request of the frame fails, so the cycle ends by DONE. -/
theorem completeCycle : Obligations.CompleteCycle := by
  intro v bs rest s hlen hs
  have ⟨_, _, _, _, hrx⟩ := hs
  have hlen' : (bs.map RxAnswer.byte).length = frameLength v := by simpa using hlen
  obtain ⟨n, t, hn, hrun, houtcome⟩ := readyFor_ends hs
  refine ⟨n, t, hn, hrun, ?_⟩
  cases houtcome with
  | ok _ htraced =>
    refine ⟨rfl, rfl, ?events, ?stream, htraced.count⟩
    case events =>
      rw [State.finish_events, htraced.trace, requestTrace_eq_cycleEvents (frameLength_pos v), ← hlen',
        nextAnswers_listed hrx]
      simp
    case stream => rw [State.finish_rx, htraced.stream, hrx, ← hlen', List.drop_left]
  | failed hj _ hcause _ => exact absurd (bytesFirst_listed hrx _ (hlen ▸ hj)) (not_byte_of_cause hcause)

/-- Settles O60: the cycle cannot get past the bad answer, and no answer before it ends the cycle. -/
theorem abortedCycle : Obligations.AbortedCycle := by
  intro v bs bad c rest s hlen hbad hs
  have ⟨_, _, _, _, hrx⟩ := hs
  have hbytes : BytesFirst s bs.length := bytesFirst_listed (hrx.trans (List.append_assoc ..))
  have hat : s.answerAt bs.length = bad := (answerAt_listed hrx (by simp)).trans (by simp)
  have hnot : ¬ ∃ b, s.answerAt bs.length = .byte b := hat ▸ not_byte_of_cause hbad
  obtain ⟨n, t, hn, hrun, houtcome⟩ := readyFor_ends hs
  refine ⟨n, t, hn, hrun, ?_⟩
  cases houtcome with
  | ok hall _ => exact absurd (hall _ hlen) hnot
  | @failed w j c' _ hfirst hcause htraced =>
    obtain rfl : j = bs.length := by
      obtain hlt | heq | hgt := Nat.lt_trichotomy j bs.length
      · exact absurd (hbytes j hlt) (not_byte_of_cause hcause)
      · exact heq
      · exact absurd (hfirst _ hgt) hnot
    obtain rfl : c' = c := by simpa [hat, hbad] using hcause.symm
    have hanswers : s.nextAnswers (bs.length + 1) = bs.map .byte ++ [bad] := by
      simpa using nextAnswers_listed hrx
    refine ⟨rfl, rfl, rfl, rfl, ?events, ?stream, htraced.count, fun r => by simp, fun r => by simp⟩
    case events =>
      rw [State.abort_events, htraced.trace, requestTrace_eq_cycleEvents (by omega), hanswers]
      simp
    case stream =>
      rw [State.abort_rx, htraced.stream, hrx, List.drop_left' (by simp)]

end Sys2Proof.Machine
end

section
/-! The sequencer (41_sequencer.md R120 to R126, R128, R131; 60_exceptions.md R179, R193): what START, TXB, DONE and Abort
do, that nothing runs in Idle, and over all steps how the counter moves, how a cycle ends and what is reported then. -/

namespace Sys2Proof.Machine

section
variable {s t : State} {i : Instr}

/-! ### Idle and START -/

/-- Every micro-operation asks first whether a cycle is in progress (R124). -/
theorem exec_eq_inCycle (hi : i ≠ .start) : ∃ o, exec i s = s.inCycle o := by
  cases i with
  | start => exact absurd rfl hi
  | _ => exact ⟨_, rfl⟩

theorem execStart_busy (hst : s.st = .awaitingBytes) : execStart s = .refused .startWhileBusy := by
  simp [execStart, hst]

theorem execStart_unconfigured (hst : s.st = .idle) (hcfg : s.cfgWritten = false) :
    execStart s = .refused .startBeforeConfig := by
  simp [execStart, hst, hcfg]

theorem entryAddress_toNat (v : Variant) : (entryAddress v).toNat = 32 * v.code.toNat := by
  cases v <;> rfl

/-! ### Status and result -/

/-- STATUS during a cycle: BUSY, and DZ (10_state.md R38). -/
theorem status_busy (hst : s.st = .awaitingBytes) : s.status = if s.dz then 0x81 else 0x01 := by
  cases hdz : s.dz <;> simp [State.status, State.causeField, State.stageField, State.kindField, hst, hdz,
    DecoderState.code]

/-- STATUS after DONE: the code of Ok, and DZ (10_state.md R38). -/
theorem status_ok (hst : s.st = .idle) (hkind : s.kind = .ok) : s.status = if s.dz then 0x82 else 0x02 := by
  cases hdz : s.dz <;> simp [State.status, State.causeField, State.stageField, State.kindField, hst, hkind, hdz,
    DecoderState.code, Kind.code]

/-- A micro-operation reports a result exactly when it ends the cycle, and it is the recorded one (R128). -/
theorem exec_results (hi : i ≠ .start) (h : exec i s = .next t) :
    results t.events = results s.events ++ (if t.st = .idle then reportedResult t else []) ∧
      (t.st = .idle → (reportedResult t).length = 1) := by
  obtain ⟨-, -, -, hadvance | ⟨-, rfl⟩ | habort⟩ := exec_summary hi h
  · obtain ⟨hst, -, -, -, -, -, -, hevents⟩ := hadvance
    obtain ⟨hevents, -⟩ | ⟨b, -, hevents, -⟩ | ⟨-, hevents, -⟩ | ⟨-, hevents, -⟩ := hevents <;>
      simp [hst, hevents, results_append, results]
  · simp [reportedResult, results_append, results]
  · obtain ⟨g, c, -, hst, hkind, rfl, hcause, -, ⟨hevents, -⟩ | ⟨hevents, -⟩⟩ := habort <;>
      simp [reportedResult, hst, hkind, hcause, hevents, results_append, results]

/-! ### Control -/

/-- The three ways a step other than a reset goes on: it leaves `ST`, `VAR`, `UPC` and the trace alone, it executes a
micro-operation of a cycle, or it begins one. -/
theorem step_control_cases (h : step s = .next t) (hreset : s.turns.head? ≠ some .reset) :
    ((s.st = .awaitingBytes → ¬ s.sequencerTurn) ∧ t.st = s.st ∧ t.var = s.var ∧ t.upc = s.upc ∧
      t.events = s.events) ∨
    (s.sequencerTurn ∧ s.st = .awaitingBytes ∧ ∃ i, romInstr s.upc = some i ∧ exec i s.turnTaken = .next t) ∨
    (s.st = .idle ∧ (∃ v : Byte, s.turns.head? = some (.write 1 v) ∧ v[0] = true) ∧ t = s.turnTaken.beginCycle) := by
  obtain ⟨-, hst, rfl⟩ | ⟨hturn, hst, i, hrom, hexec⟩ | ⟨v, hturn, rfl⟩ | ⟨v, hturn, hv, hexec⟩ |
    ⟨n, v, hturn, -, -, rfl⟩ | ⟨n, v, hturn, -, rfl⟩ | ⟨hturn, -⟩ := step_cases h
  · exact .inl ⟨fun hbusy => by simp [hst] at hbusy, rfl, rfl, rfl, rfl⟩
  · exact .inr (.inl ⟨hturn, hst, i, romInstr_eq_some.2 hrom, hexec⟩)
  · exact .inl ⟨fun _ => by simp [State.sequencerTurn, hturn], rfl, rfl, rfl, rfl⟩
  · obtain ⟨hst, -, rfl⟩ := execStart_next.1 hexec
    exact .inr (.inr ⟨hst, ⟨v, hturn, hv⟩, rfl⟩)
  · exact .inl ⟨fun _ => by simp [State.sequencerTurn, hturn], rfl, rfl, rfl, rfl⟩
  · exact .inl ⟨fun _ => by simp [State.sequencerTurn, hturn], rfl, rfl, rfl, rfl⟩
  · exact absurd hturn hreset

/-- A micro-operation that ends the cycle is DONE or a read. -/
theorem exec_ends_cycle (hi : i ≠ .start) (h : exec i s = .next t) (hst : t.st = .idle) :
    i = .done ∨ rawDest i ≠ none := by
  obtain ⟨-, -, -, ⟨hbusy, -⟩ | ⟨hdone, -⟩ | ⟨g, c, hread, -⟩⟩ := exec_summary hi h
  · cases hst.symm.trans hbusy
  · exact .inl hdone
  · exact .inr hread

end

/-- Settles O9: only a micro-operation ends a cycle, and it reports the outcome it records. -/
theorem oneResultEventPerReturnToIdle : Obligations.OneResultEventPerReturnToIdle := by
  intro s t h hreset
  obtain ⟨-, hst, -, -, hevents⟩ | ⟨-, hst, i, hrom, hexec⟩ | ⟨hst, -, rfl⟩ := step_control_cases h hreset
  · have hstays : s.st = .awaitingBytes → t.st ≠ .idle := fun hbusy => by simp [hst, hbusy]
    exact ⟨by rw [hevents, if_neg fun hend => hstays hend.1 hend.2, List.append_nil],
      fun hbusy hidle => absurd hidle (hstays hbusy)⟩
  · obtain ⟨hresults, hlength⟩ := exec_results (romInstr_ne_start hrom) hexec
    exact ⟨by simpa [hst] using hresults, fun _ => hlength⟩
  · exact ⟨by simp [hst], fun hbusy => by cases hst.symm.trans hbusy⟩

/-- Settles O15: the sequencer's micro-operations advance `UPC` or end the cycle, START alone loads it. -/
theorem controlTransfers : Obligations.ControlTransfers := by
  intro s t h hreset
  obtain ⟨hturn, hst, hvar, hupc, -⟩ | ⟨hturn, hbusy, i, hrom, hexec⟩ | ⟨hidle, hwrite, rfl⟩ :=
    step_control_cases h hreset
  · refine ⟨fun hbusy _ => ⟨hvar, hupc.trans (if_neg (hturn hbusy)).symm⟩, fun hidle hbusy => ?_, fun hbusy hidle => ?_⟩
    · cases hbusy.symm.trans (hst.trans hidle)
    · cases hidle.symm.trans (hst.trans hbusy)
  · have hi : i ≠ .start := romInstr_ne_start hrom
    obtain ⟨-, -, hvar, -⟩ := exec_summary hi hexec
    refine ⟨fun _ hst => ⟨hvar, ?_⟩, fun hidle _ => (by cases hidle.symm.trans hbusy), fun _ hst => ⟨hturn, ?_⟩⟩
    · exact (exec_upc_of_busy (s := s.turnTaken) hi hexec hst).trans (if_pos hturn).symm
    · obtain rfl | hread := exec_ends_cycle hi hexec hst
      · exact .inl hrom
      · exact .inr ⟨i, hrom, hread⟩
  · exact ⟨fun hbusy _ => (by cases hidle.symm.trans hbusy), fun _ _ => ⟨rfl, entryAddress_toNat _, hwrite⟩, fun _ => nofun⟩

/-- Settles O30: only a read can fail, and without one an instruction advances, ends the cycle Ok, or is START. -/
theorem onlyReadsAbort : Obligations.OnlyReadsAbort := by
  intro i s t hd h
  by_cases hi : i = .start
  · subst hi
    obtain ⟨-, -, rfl⟩ := execStart_next.1 h
    exact ⟨nofun, .inl rfl⟩
  obtain ⟨-, -, -, ⟨-, -, hkind, -, -, -, -, hevents⟩ | ⟨-, rfl⟩ | ⟨g, c, hread, -⟩⟩ := exec_summary hi h
  · refine ⟨fun hfailed => hkind.symm.trans hfailed, ?_⟩
    obtain ⟨hevents, -⟩ | ⟨b, -, hevents, -⟩ | ⟨hread, -⟩ | ⟨hread, -⟩ := hevents
    · exact .inl hevents
    · exact .inr (.inl ⟨b, hevents⟩)
    · exact absurd hd hread
    · exact absurd hd hread
  · exact ⟨nofun, .inr (.inr rfl)⟩
  · exact absurd hd hread

/-- Settles O21: on the sequencer's turn nothing is due, and every micro-operation asks for a cycle. -/
theorem idleWaits : Obligations.IdleWaits := by
  refine ⟨fun s hst hturn => step_idle hturn hst, fun s i hst hi => ?_⟩
  obtain ⟨o, ho⟩ := exec_eq_inCycle (s := s) hi
  exact ho.trans (State.inCycle_idle hst)

/-- Settles O24: the step is START's, which looks at `ST` and then at `CFGV`. -/
theorem startAcceptance : Obligations.StartAcceptance := by
  intro s v hturn hv
  rw [step_writeCtrl_start hturn hv]
  exact ⟨fun hst hcfg => ⟨_, execStart_next.2 ⟨hst, hcfg, rfl⟩, rfl⟩, execStart_busy (s := s.turnTaken),
    execStart_unconfigured (s := s.turnTaken)⟩

/-- Settles O25: no output is valid or readable once the cycle is in progress. -/
theorem startBeginsACycle : Obligations.StartBeginsACycle := by
  intro s hst hcfg
  exact ⟨s.beginCycle, execStart_next.2 ⟨hst, hcfg, rfl⟩, rfl, rfl, entryAddress_toNat _, s.x.valid_invalidate,
    fun r => by simp, rfl, rfl, rfl, rfl, rfl, status_busy rfl, ⟨rfl, rfl, rfl⟩, ⟨rfl, rfl, rfl, rfl⟩,
    fun h r hr => (hostValue_output hr).trans (readOutput_refused (.inl rfl))⟩

/-- Settles O26: a trigger byte is what TXB asks its immediate to be, and all it does is to send it and advance. -/
theorem txbSendsItsByte : Obligations.TxbSendsItsByte := by
  intro s imm hst himm
  have htrigger : triggerBytes.contains imm = true := contains_triggerBytes.2 himm
  exact ⟨decode_of_encode (i := .txb imm) rfl htrigger, _, execTxb_next.2 ⟨hst, htrigger, rfl⟩, rfl, rfl, rfl, rfl, rfl,
    rfl, ⟨rfl, rfl, rfl, rfl, rfl, rfl, rfl, rfl⟩, rfl, rfl, rfl, rfl, rfl, rfl⟩

/-- Settles O28: all DONE writes is `ST`, `KIND` and the trace. -/
theorem doneEndsTheCycle : Obligations.DoneEndsTheCycle := by
  intro s hst
  exact ⟨decode_of_encode (i := .done) rfl rfl, s.finish, execDone_next.2 ⟨hst, rfl⟩, rfl, rfl, rfl, status_ok rfl rfl,
    rfl, rfl, rfl, rfl, rfl, rfl, rfl, rfl, rfl, rfl, rfl, rfl, rfl, rfl, rfl⟩

/-- Settles O29: Abort invalidates every register and keeps its contents. -/
theorem abortRecordsTheFailure : Obligations.AbortRecordsTheFailure := by
  intro s g c
  exact ⟨rfl, s.x.valid_invalidate, fun r => by simp, rfl, rfl, rfl, rfl, rfl, rfl, rfl, rfl, rfl, rfl, rfl,
    s.x.value_invalidate, rfl, rfl, rfl, rfl⟩

end Sys2Proof.Machine
end

section
/-! Rounding to nearest even over the rationals (42_scaler.md R141): how far `rn` moves a number, that no number of at most
53 significant bits is nearer, and what follows from that: exactness and monotonicity. -/

namespace Sys2Proof.Machine.F64

/-! ### The nearest integer -/

/-- The nearest integer, ties to the even one (R141: `m'` from `n`). -/
def roundEven (n : ℚ) : ℤ :=
  if n - ⌊n⌋ > 1 / 2 ∨ (n - ⌊n⌋ = 1 / 2 ∧ ⌊n⌋ % 2 = 1) then ⌊n⌋ + 1 else ⌊n⌋

section
variable {n q r : ℚ}

/-- The rounded integer is as near as either neighbour of `n`. -/
theorem abs_roundEven_sub (n : ℚ) : |roundEven n - n| ≤ n - ⌊n⌋ ∧ |roundEven n - n| ≤ ⌊n⌋ + 1 - n := by
  have hlow := Int.floor_le n
  have hhigh := Int.lt_floor_add_one n
  unfold roundEven
  split
  · next hup =>
    have hup : 1 / 2 ≤ n - ⌊n⌋ := hup.elim le_of_lt fun h => h.1.ge
    rw [Int.cast_add, Int.cast_one, abs_of_pos (by linarith)]
    constructor <;> linarith
  · next hdown =>
    have hdown : n - ⌊n⌋ ≤ 1 / 2 := not_lt.1 (not_or.1 hdown).1
    rw [abs_sub_comm, abs_of_nonneg (by linarith)]
    constructor <;> linarith

theorem abs_roundEven_sub_le_half (n : ℚ) : |roundEven n - n| ≤ 1 / 2 := by
  obtain ⟨hdown, hup⟩ := abs_roundEven_sub n
  linarith

theorem abs_roundEven_sub_le (n : ℚ) (k : ℤ) : |roundEven n - n| ≤ |k - n| := by
  obtain ⟨hdown, hup⟩ := abs_roundEven_sub n
  obtain hk | hk := le_or_gt k ⌊n⌋
  · have hk : (k : ℚ) ≤ ⌊n⌋ := by exact_mod_cast hk
    rw [abs_sub_comm (k : ℚ)]
    exact hdown.trans (le_abs.2 (.inl (by linarith)))
  · have hk : (⌊n⌋ : ℚ) + 1 ≤ k := by exact_mod_cast hk
    exact hup.trans (le_abs.2 (.inl (by linarith)))

/-- An integer below `n` is not passed. -/
theorem le_roundEven {k : ℤ} (h : (k : ℚ) ≤ n) : k ≤ roundEven n := by
  have hk : k ≤ ⌊n⌋ := Int.le_floor.2 h
  unfold roundEven
  split <;> omega

theorem roundEven_le {k : ℤ} (h : n < k) : roundEven n ≤ k := by
  have hk : ⌊n⌋ < k := Int.floor_lt.2 h
  unfold roundEven
  split <;> omega

/-! ### The unit in the last place -/

/-- The unit of the 53-bit significand of `q` (R141: `u`). -/
def ulp (q : ℚ) : ℚ := (2 : ℚ) ^ (Int.log 2 |q| - 52)

theorem ulp_pos (q : ℚ) : 0 < ulp q := zpow_pos two_pos _

/-- A power of two of units. -/
theorem ulp_mul (q : ℚ) (k : ℤ) : (2 : ℚ) ^ k * ulp q = 2 ^ (Int.log 2 |q| + (k - 52)) := by
  rw [ulp, ← zpow_add₀ two_ne_zero]
  congr 1
  ring

/-- The significand of a positive number lies between `2^52` and `2^53`. -/
theorem significand_bounds (hq : 0 < q) : 2 ^ 52 ≤ q / ulp q ∧ q / ulp q < 2 ^ 53 := by
  rw [le_div_iff₀ (ulp_pos q), div_lt_iff₀ (ulp_pos q), ← zpow_natCast, ← zpow_natCast, ulp_mul, ulp_mul,
    abs_of_pos hq]
  exact ⟨by simpa using Int.zpow_log_le_self (b := 2) one_lt_two hq,
    by simpa using Int.lt_zpow_succ_log_self (b := 2) one_lt_two q⟩

/-! ### `rn` -/

@[simp] theorem rn_zero : rn 0 = 0 := if_pos rfl

theorem rn_of_pos (hq : 0 < q) : rn q = roundEven (q / ulp q) * ulp q := by
  rw [rn, if_neg hq.ne']
  simp only [if_neg hq.not_gt, one_mul, roundEven, ulp, abs_of_pos hq]

/-- What holds of 0 and of the positive numbers and does not depend on the sign holds of every number. -/
theorem sign_induction {P : ℚ → Prop} (zero : P 0) (pos : ∀ q, 0 < q → P q) (neg : ∀ q, P q → P (-q)) (q : ℚ) :
    P q := by
  obtain hq | rfl | hq := lt_trichotomy q 0
  · exact neg_neg q ▸ neg _ (pos _ (neg_pos.2 hq))
  · exact zero
  · exact pos q hq

theorem rn_neg (q : ℚ) : rn (-q) = -rn q := by
  induction q using sign_induction with
  | zero => simp
  | pos q hq =>
    rw [rn_of_pos hq, rn, if_neg (neg_ne_zero.2 hq.ne')]
    simp only [if_pos (neg_neg_of_pos hq), abs_neg, roundEven, ulp, abs_of_pos hq]
    ring
  | neg q ih => rw [ih, neg_neg, neg_neg]

theorem roundEven_significand_bounds (hq : 0 < q) :
    2 ^ 52 ≤ roundEven (q / ulp q) ∧ roundEven (q / ulp q) ≤ 2 ^ 53 := by
  obtain ⟨hlow, hhigh⟩ := significand_bounds hq
  exact ⟨le_roundEven (by exact_mod_cast hlow), roundEven_le (by exact_mod_cast hhigh)⟩

theorem rn_pos (hq : 0 < q) : 0 < rn q := by
  rw [rn_of_pos hq]
  have hm : 0 < roundEven (q / ulp q) := lt_of_lt_of_le (by norm_num) (roundEven_significand_bounds hq).1
  exact mul_pos (Int.cast_pos.2 hm) (ulp_pos q)

theorem rn_pos_iff : 0 < rn q ↔ 0 < q := by
  refine ⟨fun h => ?_, rn_pos⟩
  by_contra hq
  obtain hq | rfl := (not_lt.1 hq).lt_or_eq
  · have := rn_pos (neg_pos.2 hq)
    rw [rn_neg] at this
    linarith
  · simp at h

theorem rn_lt_zero_iff : rn q < 0 ↔ q < 0 := by
  rw [← neg_pos, ← rn_neg, rn_pos_iff, neg_pos]

theorem abs_rn (q : ℚ) : |rn q| = rn |q| := by
  obtain hq | hq := le_or_gt 0 q
  · rw [abs_of_nonneg hq, abs_of_nonneg (not_lt.1 (mt rn_lt_zero_iff.1 hq.not_gt))]
  · rw [abs_of_neg hq, rn_neg, abs_of_neg (rn_lt_zero_iff.2 hq)]

/-- A distance from `q`, measured in units of `q`. -/
theorem abs_mul_ulp_sub (x q : ℚ) : |x * ulp q - q| = |x - q / ulp q| * ulp q := by
  have hu := ulp_pos q
  calc |x * ulp q - q| = |(x - q / ulp q) * ulp q| := by rw [sub_mul, div_mul_cancel₀ q hu.ne']
    _ = |x - q / ulp q| * ulp q := by rw [abs_mul, abs_of_pos hu]

/-- The relative error of `rn`. -/
theorem abs_rn_sub_le (q : ℚ) : |rn q - q| ≤ |q| / 2 ^ 53 := by
  induction q using sign_induction with
  | zero => simp
  | pos q hq =>
    have hu := ulp_pos q
    have hlow := (le_div_iff₀ hu).1 (significand_bounds hq).1
    calc |rn q - q| = |roundEven (q / ulp q) - q / ulp q| * ulp q := by rw [rn_of_pos hq, abs_mul_ulp_sub]
      _ ≤ 1 / 2 * ulp q := mul_le_mul_of_nonneg_right (abs_roundEven_sub_le_half _) hu.le
      _ ≤ |q| / 2 ^ 53 := by rw [abs_of_pos hq]; linarith
  | neg q ih => rwa [rn_neg, neg_sub_neg, abs_sub_comm, abs_neg]

/-! ### Numbers of at most 53 significant bits -/

/-- A number of at most 53 significant bits (R141). -/
def Representable (y : ℚ) : Prop := ∃ m e : ℤ, |m| ≤ 2 ^ 53 ∧ y = m * (2 : ℚ) ^ e

theorem Representable.neg {y : ℚ} (h : Representable y) : Representable (-y) := by
  obtain ⟨m, e, hm, rfl⟩ := h
  exact ⟨-m, e, by rwa [abs_neg], by push_cast; ring⟩

theorem representable_rn (q : ℚ) : Representable (rn q) := by
  induction q using sign_induction with
  | zero => exact ⟨0, 0, by norm_num, by simp⟩
  | pos q hq =>
    obtain ⟨hlow, hhigh⟩ := roundEven_significand_bounds hq
    exact ⟨_, _, abs_le.2 ⟨by linarith, hhigh⟩, rn_of_pos hq⟩
  | neg q ih => exact rn_neg q ▸ ih.neg

/-- From the lower end of the binade of `q` upwards the representable numbers are whole multiples of its unit. -/
theorem Representable.eq_mul_ulp {y : ℚ} (h : Representable y) (hy : (2 : ℚ) ^ (52 : ℤ) * ulp q ≤ y) :
    ∃ k : ℤ, y = k * ulp q := by
  obtain ⟨m, e, hm, rfl⟩ := h
  obtain he | he := le_or_gt (Int.log 2 |q| - 52) e
  · obtain ⟨j, hj⟩ := Int.eq_ofNat_of_zero_le (sub_nonneg.2 he)
    refine ⟨m * 2 ^ j, ?_⟩
    rw [ulp, show e = (j : ℤ) + (Int.log 2 |q| - 52) by omega, zpow_add₀ two_ne_zero]
    push_cast
    rw [zpow_natCast]
    ring
  · -- below the unit only the lower end of the binade is left
    have hm : (m : ℚ) ≤ 2 ^ (53 : ℤ) := by exact_mod_cast (abs_le.1 hm).2
    have hle : (m : ℚ) * 2 ^ e ≤ 2 ^ (52 : ℤ) * ulp q := calc
      (m : ℚ) * 2 ^ e ≤ 2 ^ (53 : ℤ) * 2 ^ e := mul_le_mul_of_nonneg_right hm (by positivity)
      _ = 2 ^ (53 + e) := (zpow_add₀ two_ne_zero _ _).symm
      _ ≤ 2 ^ (Int.log 2 |q| + (52 - 52)) := zpow_le_zpow_right₀ one_le_two (by omega)
      _ = 2 ^ (52 : ℤ) * ulp q := (ulp_mul q 52).symm
    exact ⟨2 ^ 52, by rw [le_antisymm hle hy]; norm_num⟩

theorem abs_rn_sub_le_of_pos (hq : 0 < q) {y : ℚ} (hy : Representable y) : |rn q - q| ≤ |y - q| := by
  have hu := ulp_pos q
  have hlow := (le_div_iff₀ hu).1 (significand_bounds hq).1
  have grid : ∀ k : ℤ, |rn q - q| ≤ |k * ulp q - q| := fun k => by
    rw [rn_of_pos hq, abs_mul_ulp_sub, abs_mul_ulp_sub]
    exact mul_le_mul_of_nonneg_right (abs_roundEven_sub_le _ k) hu.le
  obtain hle | hge := le_total y (2 ^ 52 * ulp q)
  · refine (grid (2 ^ 52)).trans ?_
    push_cast
    rw [abs_sub_comm, abs_sub_comm y, abs_of_nonneg (by linarith), abs_of_nonneg (by linarith)]
    linarith
  · obtain ⟨k, rfl⟩ := hy.eq_mul_ulp (q := q) (by exact_mod_cast hge)
    exact grid k

/-- No representable number is nearer to `q` than `rn q`. -/
theorem abs_rn_sub_le_of_representable (q : ℚ) {y : ℚ} (hy : Representable y) : |rn q - q| ≤ |y - q| := by
  induction q using sign_induction generalizing y with
  | zero => simp
  | pos q hq => exact abs_rn_sub_le_of_pos hq hy
  | neg q ih =>
    have h := ih hy.neg
    rwa [← abs_neg, ← abs_neg (-y - q), neg_sub', neg_sub', neg_neg, ← rn_neg] at h

theorem rn_of_representable {y : ℚ} (hy : Representable y) : rn y = y := by
  have h := abs_rn_sub_le_of_representable y hy
  rw [sub_self, abs_zero, abs_nonpos_iff] at h
  exact sub_eq_zero.1 h

/-- If `rn r` lay below `rn q`, then nearness would put their midpoint between `r` and `q`. -/
theorem rn_mono (h : q ≤ r) : rn q ≤ rn r := by
  by_contra! hlt
  have hq := sq_le_sq.2 (abs_rn_sub_le_of_representable q (representable_rn r))
  have hr := sq_le_sq.2 (abs_rn_sub_le_of_representable r (representable_rn q))
  have hqmid : rn q + rn r ≤ 2 * q := by nlinarith
  have hrmid : 2 * r ≤ rn q + rn r := by nlinarith
  obtain rfl : q = r := by linarith
  exact lt_irrefl _ hlt

end

end Sys2Proof.Machine.F64

namespace Sys2Proof.Machine

/-- Settles O46: `rn q` is the nearest point of the grid of its binade, and no number below the binade is nearer than its
lower end. -/
theorem rnIsNearest : Obligations.RnIsNearest :=
  fun q m e hm => F64.abs_rn_sub_le_of_representable q ⟨m, e, hm, rfl⟩

/-- Settles O47: exactness and monotonicity follow from nearness. -/
theorem rnIsExactOddAndMonotone : Obligations.RnIsExactOddAndMonotone :=
  ⟨fun m e hm => F64.rn_of_representable ⟨m, e, hm, rfl⟩, F64.rn_neg, fun _ _ => F64.rn_mono⟩

end Sys2Proof.Machine
end

section
/-! The integer datapath computes `rn` (42_scaler.md R140 to R143, R150): a rounded quotient, the reciprocal of a pattern,
and the values of the two scale literals. -/

namespace Sys2Proof.Machine.F64

section
variable {p d : Nat} {v : Pattern} {w : ℚ}

/-! ### A rounded quotient -/

/-- The power of two the datapath scales by, as the two shifts it does it with. -/
theorem two_zpow_eq_div (k : ℤ) : (2 : ℚ) ^ k = 2 ^ k.toNat / 2 ^ (-k).toNat := by
  rw [← zpow_natCast, ← zpow_natCast, ← zpow_sub₀ two_ne_zero]
  congr 1
  omega

/-- The significand the datapath rounds is the significand of the quotient. -/
theorem roundDiv_shifted (hp : 0 < p) (hd : 0 < d) :
    (roundDiv (p * 2 ^ (52 - ilog2 p d).toNat) (d * 2 ^ (ilog2 p d - 52).toNat) : ℤ) =
      roundEven ((p : ℚ) / d / ulp ((p : ℚ) / d)) := by
  have hq : 0 < (p : ℚ) / d := div_pos (Nat.cast_pos.2 hp) (Nat.cast_pos.2 hd)
  have hshift : ((p * 2 ^ (52 - ilog2 p d).toNat : Nat) : ℚ) / (d * 2 ^ (ilog2 p d - 52).toNat : Nat) =
      p / d / ulp (p / d) := by
    rw [ulp, abs_of_pos hq, ← ilog2_eq hp hd, two_zpow_eq_div, neg_sub, div_div_eq_mul_div, div_mul_eq_mul_div, div_div]
    push_cast
    rfl
  rw [← hshift]
  exact roundDiv_eq _ (Nat.mul_pos hd (Nat.two_pow_pos _))

/-- The datapath computes `rn`, below `2^1023`. -/
theorem value_roundQuot (neg : Bool) (hp : 0 < p) (hd : 0 < d) (hlow : (2 : ℚ) ^ (-1022 : ℤ) ≤ (p : ℚ) / d)
    (hhigh : (p : ℚ) / d < (2 : ℚ) ^ (1023 : ℤ)) :
    value (roundQuot neg p d) = some (rn ((if neg then -1 else 1) * ((p : ℚ) / d))) := by
  have hq : 0 < (p : ℚ) / d := div_pos (Nat.cast_pos.2 hp) (Nat.cast_pos.2 hd)
  have hround := roundDiv_shifted hp hd
  obtain ⟨hmlow, hmhigh⟩ := roundEven_significand_bounds hq
  have hElow : -1022 ≤ ilog2 p d := by
    rw [ilog2_eq hp hd]
    exact (Int.zpow_le_iff_le_log one_lt_two hq).1 (by rwa [Nat.cast_ofNat])
  have hEhigh : ilog2 p d ≤ 1022 := by
    rw [ilog2_eq hp hd]
    exact Int.lt_add_one_iff.1 ((Int.lt_zpow_iff_log_lt one_lt_two hq).1 (by rwa [Nat.cast_ofNat]))
  have hrn : rn ((p : ℚ) / d) = (roundDiv (p * 2 ^ (52 - ilog2 p d).toNat) (d * 2 ^ (ilog2 p d - 52).toNat) : ℚ)
      * 2 ^ (ilog2 p d - 52) := by
    rw [rn_of_pos hq, ← hround, Int.cast_natCast, ulp, abs_of_pos hq, ilog2_eq hp hd]
  rw [roundQuot, if_neg hp.ne']
  refine (value_pack neg hElow hEhigh (by omega) (by omega)).trans ?_
  cases neg
  · simp [hrn]
  · simp [rn_neg, hrn]

/-- The same for the quotients the scaler forms: numerator, 0 included, and denominator up to `2^128`. -/
theorem value_roundQuot_of_le (neg : Bool) (hp : p ≤ 2 ^ 128) (hd : 0 < d) (hd' : d ≤ 2 ^ 128) :
    value (roundQuot neg p d) = some (rn ((if neg then -1 else 1) * ((p : ℚ) / d))) := by
  obtain rfl | hpos := Nat.eq_zero_or_pos p
  · simp [roundQuot, value]
  have hone : (1 : ℚ) ≤ p := by exact_mod_cast hpos
  have hdpos : (0 : ℚ) < d := by exact_mod_cast hd
  have hdone : (1 : ℚ) ≤ d := by exact_mod_cast hd
  have hpmax : (p : ℚ) ≤ 2 ^ 128 := by exact_mod_cast hp
  have hdmax : (d : ℚ) ≤ 2 ^ 128 := by exact_mod_cast hd'
  refine value_roundQuot neg hpos hd ?_ ?_
  · calc (2 : ℚ) ^ (-1022 : ℤ) ≤ 2 ^ (-128 : ℤ) := zpow_le_zpow_right₀ one_le_two (by norm_num)
      _ = 1 / 2 ^ 128 := by norm_num
      _ ≤ p / d := div_le_div₀ (by linarith) hone hdpos hdmax
  · calc (p : ℚ) / d ≤ p := div_le_self (by linarith) hdone
      _ ≤ 2 ^ (128 : ℤ) := by exact_mod_cast hpmax
      _ < 2 ^ (1023 : ℤ) := zpow_lt_zpow_right₀ one_lt_two (by decide)

/-! ### The value of a pattern -/

/-- The value of a normal pattern, from its three fields (R140). -/
theorem value_of_fields {neg : Bool} {e f : Nat} (h : signBit v = neg ∧ expField v = e ∧ fracField v = f)
    (he : 1 ≤ e ∧ e ≤ 2046) :
    value v = some ((if neg then -1 else 1) * (2 : ℚ) ^ ((e : ℤ) - 1023) * (1 + (f : ℚ) / 2 ^ 52)) := by
  obtain ⟨rfl, rfl, rfl⟩ := h
  have hv : v ≠ 0 := by
    rintro rfl
    exact absurd he (by decide)
  rw [value, if_neg hv, if_pos he]

/-- A pattern with a value is zero or normal. -/
theorem value_cases (h : value v = some w) :
    (v = 0 ∧ w = 0) ∨ (1 ≤ expField v ∧ expField v ≤ 2046 ∧
      w = (if signBit v then -1 else 1) * (2 : ℚ) ^ ((expField v : ℤ) - 1023) * (1 + (fracField v : ℚ) / 2 ^ 52)) := by
  unfold value at h
  split at h
  · next hv => exact .inl ⟨hv, (Option.some.inj h).symm⟩
  · split at h
    · next he => exact .inr ⟨he.1, he.2, (Option.some.inj h).symm⟩
    · cases h

theorem rn_eq_of_pattern (hv : roundQuot false p d = v) (hw : value v = some w) (hp : p ≤ 2 ^ 128) (hd : 0 < d)
    (hd' : d ≤ 2 ^ 128) : rn ((p : ℚ) / d) = w := by
  have h := value_roundQuot_of_le false hp hd hd'
  rw [hv, hw] at h
  simpa using h.symm

/-! ### The reciprocal -/

/-- A normal value as the quotient the reciprocal turns over. -/
theorem two_zpow_mul_significand (e f : Nat) :
    (2 : ℚ) ^ ((e : ℤ) - 1023) * (1 + (f : ℚ) / 2 ^ 52) =
      ((2 ^ 52 + f) * 2 ^ (e - 1075) : Nat) / ((2 ^ (1075 - e) : Nat) : ℚ) := by
  have hexp : (2 : ℚ) ^ ((e : ℤ) - 1023) = 2 ^ (e - 1075) / 2 ^ (1075 - e) * 2 ^ 52 := by
    rw [← zpow_natCast, ← zpow_natCast, ← zpow_natCast, ← zpow_sub₀ two_ne_zero, ← zpow_add₀ two_ne_zero]
    congr 1
    omega
  rw [hexp]
  push_cast
  ring

theorem fraction_nonneg (f : Nat) : 0 ≤ (f : ℚ) / 2 ^ 52 := by positivity

/-- The guard of `reciprocal`: the magnitude is at most `2^1022`. -/
theorem reciprocal_guard {e f : Nat} (h : (2 : ℚ) ^ ((e : ℤ) - 1023) * (1 + (f : ℚ) / 2 ^ 52) ≤ 2 ^ (1022 : ℤ)) :
    e ≤ 2044 ∨ (e = 2045 ∧ f = 0) := by
  have hf := fraction_nonneg f
  have he : e ≤ 2045 := by
    have hpow : (2 : ℚ) ^ ((e : ℤ) - 1023) ≤ 2 ^ (1022 : ℤ) :=
      (le_mul_of_one_le_right (by positivity) (le_add_of_nonneg_right hf)).trans h
    have := (zpow_le_zpow_iff_right₀ (one_lt_two (α := ℚ))).1 hpow
    omega
  obtain rfl | he := he.eq_or_lt
  · have hone : 1 + (f : ℚ) / 2 ^ 52 ≤ 1 := (mul_le_iff_le_one_right (zpow_pos two_pos (1022 : ℤ))).1 h
    have hzero : (f : ℚ) / 2 ^ 52 = 0 := le_antisymm (by linarith only [hone]) hf
    exact .inr ⟨rfl, by simpa using hzero⟩
  · exact .inl (by omega)

/-- A quotient turned over is rounded as the reciprocal. -/
theorem value_roundQuot_inv {neg : Bool} (hp : 0 < p) (hd : 0 < d) (hw : w = (if neg then -1 else 1) * ((d : ℚ) / p))
    (hlow : (2 : ℚ) ^ (-1022 : ℤ) ≤ |w|) (hhigh : |w| ≤ (2 : ℚ) ^ (1022 : ℤ)) :
    value (roundQuot neg p d) = some (rn (1 / w)) := by
  have hp' : (0 : ℚ) < p := Nat.cast_pos.2 hp
  have hd' : (0 : ℚ) < d := Nat.cast_pos.2 hd
  have habs : |w| = d / p := by rw [hw]; cases neg <;> simp [abs_of_pos (div_pos hd' hp')]
  have hturn : (p : ℚ) / d = |w|⁻¹ := by rw [habs, inv_div]
  have hwpos : 0 < |w| := habs ▸ div_pos hd' hp'
  have hinv : 1 / w = (if neg then -1 else 1) * ((p : ℚ) / d) := by rw [hw]; cases neg <;> simp
  rw [hinv]
  refine value_roundQuot neg hp hd ?_ ?_ <;> rw [hturn]
  · rw [zpow_neg]
    exact inv_anti₀ hwpos hhigh
  · calc |w|⁻¹ ≤ ((2 : ℚ) ^ (-1022 : ℤ))⁻¹ := inv_anti₀ (zpow_pos two_pos _) hlow
      _ = 2 ^ (1022 : ℤ) := by rw [← zpow_neg, neg_neg]
      _ < 2 ^ (1023 : ℤ) := zpow_lt_zpow_right₀ one_lt_two (by norm_num)

/-- The datapath's reciprocal is `rn(1/w)` over the range of R141. -/
theorem value_reciprocal (h : value v = some w) (hlow : (2 : ℚ) ^ (-1022 : ℤ) ≤ |w|)
    (hhigh : |w| ≤ (2 : ℚ) ^ (1022 : ℤ)) : ∃ u, reciprocal v = some u ∧ value u = some (rn (1 / w)) := by
  obtain ⟨-, rfl⟩ | ⟨he, -, hw⟩ := value_cases h
  · exact absurd hlow (by rw [abs_zero, not_le]; exact zpow_pos two_pos _)
  have hsignificand : |w| = 2 ^ ((expField v : ℤ) - 1023) * (1 + (fracField v : ℚ) / 2 ^ 52) := by
    have hpos : 0 < (2 : ℚ) ^ ((expField v : ℤ) - 1023) * (1 + (fracField v : ℚ) / 2 ^ 52) :=
      mul_pos (zpow_pos two_pos _) (by linarith only [fraction_nonneg (fracField v)])
    rw [hw]
    cases signBit v <;> simp [abs_of_pos, hpos]
  rw [mul_assoc, two_zpow_mul_significand] at hw
  exact ⟨_, if_pos ⟨he, reciprocal_guard (hsignificand ▸ hhigh)⟩,
    value_roundQuot_inv (Nat.two_pow_pos _) (Nat.mul_pos (by omega) (Nat.two_pow_pos _)) hw hlow hhigh⟩

end

end Sys2Proof.Machine.F64

namespace Sys2Proof.Machine

/-- Settles O45: the exponent, the rounded significand and the packed pattern are those of `rn`. -/
theorem datapathRoundsAsRn : Obligations.DatapathRoundsAsRn :=
  fun neg _ _ => F64.value_roundQuot neg

/-- Settles O48: `9.81` is rounded once by the datapath; every product and quotient after it is exact. -/
theorem scaleLiterals : Obligations.ScaleLiterals := by
  have hpattern : F64.value 0x40239EB851EB851F = some (5522539043063071 / 2 ^ 49) := by
    rw [F64.value_of_fields (neg := false) (e := 1026) (f := 0x39EB851EB851F) (by decide) (by decide)]
    norm_num
  have hliteral : F64.rn (981 / 100) = 5522539043063071 / 2 ^ 49 := by
    exact_mod_cast F64.rn_eq_of_pattern (p := 981) (d := 100) (by decide) hpattern (by norm_num) (by norm_num)
      (by norm_num)
  refine ⟨hliteral, hpattern, ?_, ?_, by norm_num, ?_, ?_⟩
  · rw [hliteral,
      F64.rn_of_representable (y := 5522539043063071 / 2 ^ 49 * 2) ⟨5522539043063071, -48, by norm_num, by norm_num⟩,
      F64.rn_of_representable (y := 5522539043063071 / 2 ^ 49 * 2 * 2)
        ⟨5522539043063071, -47, by norm_num, by norm_num⟩,
      F64.rn_of_representable (y := 5522539043063071 / 2 ^ 49 * 2 * 2 / 4096)
        ⟨5522539043063071, -59, by norm_num, by norm_num⟩]
    norm_num
  · rw [F64.value_of_fields (neg := false) (e := 1016) (f := 0x39EB851EB851F) (by decide) (by decide)]
    norm_num
  · rw [F64.rn_of_representable (y := 250 * 2) ⟨125, 2, by norm_num, by norm_num⟩,
      F64.rn_of_representable (y := 250 * 2 / 65536) ⟨125, -14, by norm_num, by norm_num⟩]
    norm_num
  · rw [F64.value_of_fields (neg := false) (e := 1015) (f := 0xF400000000000) (by decide) (by decide)]
    norm_num

end Sys2Proof.Machine
end

section
/-! The scaler (42_scaler.md R144 to R150): the value each micro-operation writes, and what it leaves unchanged. -/

namespace Sys2Proof.Machine

/-! ### The values the datapath functions give -/

/-- A scaled integer is rounded once. -/
theorem value_scaleSigned {n : ℤ} {p d : Nat} (hp : n.natAbs * p ≤ 2 ^ 128) (hd : 0 < d) (hd' : d ≤ 2 ^ 128) :
    F64.value (scaleSigned n p d) = some (F64.rn (n * ((p : ℚ) / d))) := by
  have hsign : (if decide (n < 0) = true then -1 else 1) * (n.natAbs : ℚ) = n := by
    rw [Nat.cast_natAbs]
    obtain hn | hn := lt_or_ge n 0
    · simp [hn, abs_of_neg hn]
    · simp [hn.not_gt, abs_of_nonneg hn]
  rw [scaleSigned, F64.value_roundQuot_of_le _ hp hd hd', Nat.cast_mul, mul_div_assoc, ← mul_assoc, hsign]

/-- SCACC's product (R145). -/
theorem value_scaleAcc {n : ℤ} (hn : n.natAbs ≤ 32768) :
    F64.value (scaleSigned n accSignificand (2 ^ 59)) = some (F64.rn (n * (5522539043063071 / 2 ^ 59))) := by
  rw [value_scaleSigned ((Nat.mul_le_mul_right _ hn).trans (by decide)) (by decide) (by decide), accSignificand]
  norm_cast

/-- SCGYR's product has at most 23 significant bits, so it is exact (R146). -/
theorem value_scaleGyr {n : ℤ} (hn : n.natAbs ≤ 32768) :
    F64.value (scaleSigned n gyrNumerator gyrDenominator) = some ((n : ℚ) * 125 / 16384) := by
  have hexact : F64.Representable ((n : ℚ) * (125 / 16384)) :=
    ⟨n * 125, -14, by rw [abs_le]; omega, by push_cast; norm_num; ring⟩
  rw [value_scaleSigned ((Nat.mul_le_mul_right _ hn).trans (by decide)) (by decide) (by decide), gyrNumerator,
    gyrDenominator, Nat.cast_ofNat, Nat.cast_ofNat, F64.rn_of_representable hexact, mul_div_assoc]

/-- A fixed-point sum is exact (R147, R148). -/
theorem value_fixedPoint {c f : Nat} (hc : c < 2 ^ 16) (hf : f < 2 ^ 8) :
    F64.value (fixedPoint c f) = some ((c : ℚ) + (f : ℚ) / 16) := by
  have hexact : F64.Representable ((c : ℚ) + (f : ℚ) / 16) :=
    ⟨16 * c + f, -4, by rw [abs_le]; omega, by push_cast; norm_num; ring⟩
  have hquot : ((16 * c + f : Nat) : ℚ) / (16 : Nat) = c + f / 16 := by
    push_cast
    ring
  rw [fixedPoint, F64.value_roundQuot_of_le false (by omega) (by decide) (by decide), hquot]
  simp [F64.rn_of_representable hexact]

/-- IVSEC's quotient is rounded once (R149). -/
theorem value_intervalSeconds {n : Nat} (hn : n < 2 ^ 16) :
    F64.value (intervalSeconds n) = some (F64.rn ((n : ℚ) / 10000000)) := by
  rw [intervalSeconds, F64.value_roundQuot_of_le false (by omega) (by decide) (by decide)]
  simp [ticksPerSecond]

theorem value_reciprocalOf {v : Pattern} {w : ℚ} (h : F64.value v = some w) (hlow : (2 : ℚ) ^ (-1022 : ℤ) ≤ |w|)
    (hhigh : |w| ≤ (2 : ℚ) ^ (1022 : ℤ)) : F64.value (reciprocalOf v) = some (F64.rn (1 / w)) := by
  obtain ⟨u, hu, hvalue⟩ := F64.value_reciprocal h hlow hhigh
  rw [reciprocalOf, hu, Option.getD_some, hvalue]

/-- The interval of any ticks is far inside the range of the reciprocal. -/
theorem rn_interval_bounds {n : Nat} (h0 : 0 < n) (hn : n < 2 ^ 16) :
    (2 : ℚ) ^ (-24 : ℤ) ≤ F64.rn ((n : ℚ) / 10000000) ∧ F64.rn ((n : ℚ) / 10000000) ≤ 2 ^ (0 : ℤ) := by
  have hone : (1 : ℚ) ≤ n := by exact_mod_cast h0
  have hmax : (n : ℚ) ≤ 65536 := by exact_mod_cast hn.le
  have hexact : ∀ k : ℤ, F64.rn ((2 : ℚ) ^ k) = 2 ^ k := fun k =>
    F64.rn_of_representable ⟨1, k, by norm_num, by simp⟩
  exact ⟨(hexact _).symm.trans_le (F64.rn_mono (by norm_num; linarith)),
    (F64.rn_mono (by norm_num; linarith)).trans_eq (hexact _)⟩

/-- The frequency of ticks other than 0 is rounded twice (R149, R150). -/
theorem value_frequency {n : Nat} (h0 : 0 < n) (hn : n < 2 ^ 16) :
    F64.value (reciprocalOf (intervalSeconds n)) = some (F64.rn (1 / F64.rn ((n : ℚ) / 10000000))) := by
  obtain ⟨hlow, hhigh⟩ := rn_interval_bounds h0 hn
  have hpos : 0 < F64.rn ((n : ℚ) / 10000000) := (zpow_pos two_pos _).trans_le hlow
  refine value_reciprocalOf (value_intervalSeconds hn) ?_ ?_ <;> rw [abs_of_pos hpos]
  · exact (zpow_le_zpow_right₀ one_le_two (by norm_num)).trans hlow
  · exact hhigh.trans (zpow_le_zpow_right₀ one_le_two (by norm_num))

/-! ### Completion -/

section
variable {s t : State}

theorem natAbs_toInt_le (w : RawWord) : w.toInt.natAbs ≤ 32768 := by
  have hlow := BitVec.le_toInt w
  have hhigh := BitVec.toInt_lt (x := w)
  omega

theorem toNat_ne_zero {w : RawWord} (h : w ≠ 0) : w.toNat ≠ 0 := fun h0 => h (BitVec.eq_of_toNat_eq h0)

/-- What a scaler micro-operation that writes one output and advances has done. -/
theorem completes_of_writeOut {o : Host.Outcome State Fault Refusal} {d : OutReg} {v : Pattern} {w : ℚ}
    (h : o = .next (s.writeOut d v).advance) (hv : F64.value v = some w) :
    ∃ t, o = .next t ∧ (t.y.get d).valid = true ∧ t.upc = s.upc + 1 ∧ s.SameControl t
      ∧ F64.value (t.y.get d).bits = some w :=
  ⟨_, h, by simp, rfl, ⟨rfl, rfl, rfl, rfl, rfl, rfl, rfl, rfl⟩, by simpa using hv⟩

/-! Source and destination by their indices (R145, R146). -/

theorem eq_of_i16_index {a b : I16Reg} (h : a.index = b.index) : a = b :=
  Option.some.inj ((I16Reg.ofIndex_eq.2 rfl).symm.trans (I16Reg.ofIndex_eq.2 h))

theorem accSource_index (i : Axis) : (accSource i).index = i.index := by cases i <;> rfl

theorem gyrSource_index (i : Axis) : (gyrSource i).index = 3 + i.index := by cases i <;> rfl

theorem outputOfHostReg_acc (i : Axis) : outputOfHostReg (8 + i.index.toNat) = some (accDest i) := by cases i <;> rfl

theorem outputOfHostReg_gyr (i : Axis) : outputOfHostReg (11 + i.index.toNat) = some (gyrDest i) := by cases i <;> rfl

/-! ### The frame -/

/-- All a scaler micro-operation can do: write its destination and advance, and FREQ on zero ticks raise `DZ` too. -/
theorem exec_scaler_next {i : Instr} {d : OutReg} (hd : outDest i = some d) (h : exec i s = .next t) :
    s.st = .awaitingBytes ∧ ∃ v, t = (s.writeOut d v).advance ∨
      (i = .freq ∧ s.x.ivt.bits = 0 ∧ t = (s.writeOut d v).raiseDz.advance) := by
  cases i <;> cases hd <;> simp only [exec] at h
  case scacc =>
    obtain ⟨hst, -, ht⟩ := execScacc_next.1 h
    exact ⟨hst, _, .inl ht⟩
  case scgyr =>
    obtain ⟨hst, -, ht⟩ := execScgyr_next.1 h
    exact ⟨hst, _, .inl ht⟩
  case fxalt =>
    obtain ⟨hst, -, -, ht⟩ := execFxalt_next.1 h
    exact ⟨hst, _, .inl ht⟩
  case fxtmp =>
    obtain ⟨hst, -, -, ht⟩ := execFxtmp_next.1 h
    exact ⟨hst, _, .inl ht⟩
  case ivsec =>
    obtain ⟨hst, -, ht⟩ := execIvsec_next.1 h
    exact ⟨hst, _, .inl ht⟩
  case freq =>
    obtain ⟨hst, -, ⟨hticks, ht⟩ | ⟨-, -, ht⟩⟩ := execFreq_next.1 h
    · exact ⟨hst, _, .inr ⟨rfl, BitVec.eq_of_toNat_eq hticks, ht⟩⟩
    · exact ⟨hst, _, .inl ht⟩

end

/-- Settles O36: one rounding of the product with `C_ACC`. -/
theorem scaccScalesTheAcceleration : Obligations.ScaccScalesTheAcceleration := by
  intro s i src dst hsrc hdst hst hvalid
  obtain rfl : src = accSource i := eq_of_i16_index (hsrc.trans (accSource_index i).symm)
  obtain rfl : dst = accDest i := Option.some.inj (hdst.symm.trans (outputOfHostReg_acc i))
  exact ⟨decode_of_encode (i := .scacc i) rfl rfl,
    completes_of_writeOut (execScacc_next.2 ⟨hst, hvalid, rfl⟩) (value_scaleAcc (natAbs_toInt_le _))⟩

/-- Settles O37: the product with `C_GYR` is representable. -/
theorem scgyrScalesTheRateExactly : Obligations.ScgyrScalesTheRateExactly := by
  intro s i src dst hsrc hdst hst hvalid
  obtain rfl : src = gyrSource i := eq_of_i16_index (hsrc.trans (gyrSource_index i).symm)
  obtain rfl : dst = gyrDest i := Option.some.inj (hdst.symm.trans (outputOfHostReg_gyr i))
  exact ⟨decode_of_encode (i := .scgyr i) rfl rfl,
    completes_of_writeOut (execScgyr_next.2 ⟨hst, hvalid, rfl⟩) (value_scaleGyr (natAbs_toInt_le _))⟩

/-- Settles O38: the sum of a word and sixteenths of a byte is representable. -/
theorem fxaltAddsTheFraction : Obligations.FxaltAddsTheFraction := fun _ hst hc hf =>
  ⟨decode_of_encode (i := .fxalt) rfl rfl, completes_of_writeOut (d := .alt) (execFxalt_next.2 ⟨hst, hc, hf, rfl⟩)
    (value_fixedPoint (BitVec.isLt _) (BitVec.isLt _))⟩

/-- Settles O39: the sum of a byte and sixteenths of a byte is representable. -/
theorem fxtmpAddsTheFraction : Obligations.FxtmpAddsTheFraction := fun s hst hc hf =>
  ⟨decode_of_encode (i := .fxtmp) rfl rfl, completes_of_writeOut (d := .tmp) (execFxtmp_next.2 ⟨hst, hc, hf, rfl⟩)
    (value_fixedPoint (s.x.tmpc.bits.isLt.trans (by decide)) (BitVec.isLt _))⟩

/-- Settles O40: one rounding of the quotient. -/
theorem ivsecDividesTheTicks : Obligations.IvsecDividesTheTicks := fun _ hst hivt =>
  ⟨decode_of_encode (i := .ivsec) rfl rfl, completes_of_writeOut (d := .ivs) (execIvsec_next.2 ⟨hst, hivt, rfl⟩)
    (value_intervalSeconds (BitVec.isLt _))⟩

/-- Settles O41: zero ticks divert FREQ from the division; otherwise it writes the reciprocal of what `IVS` holds. -/
theorem freqTakesTheReciprocal : Obligations.FreqTakesTheReciprocal := by
  refine fun s hst hivt => ⟨decode_of_encode (i := .freq) rfl rfl, fun hticks => ?_, fun hticks hivs => ?_⟩
  · exact ⟨_, execFreq_next.2 ⟨hst, hivt, .inl ⟨by rw [hticks]; rfl, rfl⟩⟩, rfl, rfl, rfl, rfl, hst⟩
  · exact ⟨_, execFreq_next.2 ⟨hst, hivt, .inr ⟨toNat_ne_zero hticks, hivs, rfl⟩⟩, rfl,
      ⟨rfl, rfl, rfl, rfl, rfl, rfl, rfl, rfl⟩, rfl, fun v => value_reciprocalOf⟩

/-- Settles O42: FREQ finds the interval IVSEC has just written, and the ticks unchanged. -/
theorem frequencyRoundsTwice : Obligations.FrequencyRoundsTwice := by
  refine ⟨fun s hst hivt hticks => ?_, fun n => value_frequency⟩
  have hn : s.x.ivt.bits.toNat ≠ 0 := toNat_ne_zero hticks
  exact ⟨_, _, execIvsec_next.2 ⟨hst, hivt, rfl⟩, execFreq_next.2 ⟨hst, hivt, .inr ⟨hn, rfl, rfl⟩⟩, rfl,
    value_frequency (Nat.pos_of_ne_zero hn) (BitVec.isLt _)⟩

/-- Settles O43: writing the destination, advancing and raising `DZ` touch nothing else. -/
theorem scalerFrame : Obligations.ScalerFrame := by
  intro i d s t hd h
  obtain ⟨hst, v, rfl | ⟨hfreq, hticks, rfl⟩⟩ := exec_scaler_next hd h
  · exact ⟨hst, rfl, by simp, rfl, fun r hr => by simp [hr], rfl, rfl, rfl, rfl, rfl, rfl, rfl, fun _ => rfl,
      ⟨rfl, rfl, rfl⟩, ⟨rfl, rfl, rfl, rfl⟩⟩
  · exact ⟨hst, rfl, by simp, rfl, fun r hr => by simp [hr], rfl, rfl, rfl, rfl, rfl, rfl, rfl,
      fun hne => absurd hne (by simp [hfreq, hticks]), ⟨rfl, rfl, rfl⟩, ⟨rfl, rfl, rfl, rfl⟩⟩

end Sys2Proof.Machine
end

section
/-! The outputs as functions of the raw registers (42_scaler.md R161, R163, R165, R166): their ranges, their signs, that
only the frequency of zero ticks is infinite, and how the raw integer is recovered. -/

namespace Sys2Proof.Machine

section
variable {x : RawFile} {r : OutReg} {n : ℤ} {v : Pattern} {w : ℚ}

/-! ### Patterns with a value -/

theorem F64.value_posInf : F64.value F64.posInf = none := by
  rw [F64.value, if_neg (by decide), if_neg (by decide)]

theorem F64.isElement_of_value (h : F64.value v = some w) : F64.isElement v = true := by
  obtain ⟨rfl, -⟩ | ⟨hlow, hhigh, -⟩ := F64.value_cases h
  · rfl
  · simp [F64.isElement, hlow, hhigh]

/-- No element is a negative zero. -/
theorem F64.signBit_of_value_nonneg (h : F64.value v = some w) (hw : 0 ≤ w) : F64.signBit v = false := by
  obtain ⟨rfl, -⟩ | ⟨-, -, hvalue⟩ := F64.value_cases h
  · rfl
  · by_contra hs
    have hpos : 0 < (2 : ℚ) ^ ((F64.expField v : ℤ) - 1023) * (1 + (F64.fracField v : ℚ) / 2 ^ 52) := by positivity
    rw [Bool.not_eq_false] at hs
    rw [hvalue, hs, if_pos rfl, mul_assoc] at hw
    linarith

/-- Quotients the datapath gives the same pattern have the same `rn`. -/
theorem F64.rn_eq_rn_of_roundQuot_eq {p d p' d' : Nat} (h : F64.roundQuot false p d = F64.roundQuot false p' d')
    (hp : p ≤ 2 ^ 128 ∧ p' ≤ 2 ^ 128) (hd : 0 < d ∧ d ≤ 2 ^ 128) (hd' : 0 < d' ∧ d' ≤ 2 ^ 128) :
    F64.rn ((p : ℚ) / d) = F64.rn ((p' : ℚ) / d') :=
  F64.rn_eq_of_pattern h (by simpa using F64.value_roundQuot_of_le false hp.2 hd'.1 hd'.2) hp.1 hd.1 hd.2

/-! ### The ranges (R165) -/

/-- The outputs of SCACC. -/
theorem outputOf_acc (hr : r = .accx ∨ r = .accy ∨ r = .accz) :
    ∃ a : RawWord, outputOf x r = scaleSigned a.toInt accSignificand (2 ^ 59) := by
  obtain rfl | rfl | rfl := hr <;> exact ⟨_, rfl⟩

/-- The outputs of SCGYR. -/
theorem outputOf_gyr (hr : r = .gyrx ∨ r = .gyry ∨ r = .gyrz) :
    ∃ a : RawWord, outputOf x r = scaleSigned a.toInt gyrNumerator gyrDenominator := by
  obtain rfl | rfl | rfl := hr <;> exact ⟨_, rfl⟩

theorem acc_bounds (hlow : -32768 ≤ n) (hhigh : n ≤ 32767) :
    -(5522539043063071 / 2 ^ 44) ≤ F64.rn (n * (5522539043063071 / 2 ^ 59)) ∧
      F64.rn (n * (5522539043063071 / 2 ^ 59)) ≤ F64.rn 313.910419921875 := by
  have hlow : (-32768 : ℚ) ≤ n := by exact_mod_cast hlow
  have hhigh : (n : ℚ) ≤ 32767 := by exact_mod_cast hhigh
  have hmin : F64.rn (-(5522539043063071 / 2 ^ 44)) = -(5522539043063071 / 2 ^ 44) :=
    F64.rn_of_representable ⟨-5522539043063071, -44, by norm_num, by norm_num⟩
  have hmax : F64.rn (32767 * (5522539043063071 / 2 ^ 59)) = F64.rn 313.910419921875 := by
    have h := F64.rn_eq_rn_of_roundQuot_eq (p := 32767 * 5522539043063071) (d := 2 ^ 59) (p' := 313910419921875)
      (d' := 10 ^ 12) (by decide) (by decide) (by decide) (by decide)
    convert h using 2 <;> norm_num
  exact ⟨hmin.symm.trans_le (F64.rn_mono (by linarith)), (F64.rn_mono (by linarith)).trans_eq hmax⟩

/-- A magnitude other than 0 is at least that of a raw value of 1. -/
theorem acc_eq_zero_or_le_abs (n : ℤ) :
    F64.rn (n * (5522539043063071 / 2 ^ 59)) = 0 ∨
      5522539043063071 / 2 ^ 59 ≤ |F64.rn (n * (5522539043063071 / 2 ^ 59))| := by
  obtain rfl | hn := eq_or_ne n 0
  · simp
  have hone : (1 : ℚ) ≤ |(n : ℚ)| := by exact_mod_cast Int.one_le_abs hn
  have hunit : F64.rn (5522539043063071 / 2 ^ 59) = 5522539043063071 / 2 ^ 59 :=
    F64.rn_of_representable ⟨5522539043063071, -59, by norm_num, by norm_num⟩
  refine .inr (hunit.symm.trans_le ?_)
  rw [F64.abs_rn, abs_mul, abs_of_pos (show (0 : ℚ) < 5522539043063071 / 2 ^ 59 by norm_num)]
  exact F64.rn_mono (by linarith)

theorem gyr_bounds (hlow : -32768 ≤ n) (hhigh : n ≤ 32767) :
    -250 ≤ (n : ℚ) * 125 / 16384 ∧ (n : ℚ) * 125 / 16384 ≤ 249.99237060546875 ∧
      ((n : ℚ) * 125 / 16384 = 0 ∨ 125 / 16384 ≤ |(n : ℚ) * 125 / 16384|) := by
  have hlow : (-32768 : ℚ) ≤ n := by exact_mod_cast hlow
  have hhigh : (n : ℚ) ≤ 32767 := by exact_mod_cast hhigh
  refine ⟨by linarith, by norm_num; linarith, ?_⟩
  obtain rfl | hn := eq_or_ne n 0
  · simp
  have hone : (1 : ℚ) ≤ |(n : ℚ)| := by exact_mod_cast Int.one_le_abs hn
  rw [mul_div_assoc, abs_mul, abs_of_pos (show (0 : ℚ) < 125 / 16384 by norm_num)]
  exact .inr (by linarith)

/-- A fixed-point sum is 0 or at least one sixteenth. -/
theorem fixedPoint_bounds {c f C F : Nat} (hc : c ≤ C) (hf : f ≤ F) :
    0 ≤ (c : ℚ) + (f : ℚ) / 16 ∧ (c : ℚ) + (f : ℚ) / 16 ≤ C + F / 16 ∧
      ((c : ℚ) + (f : ℚ) / 16 = 0 ∨ 1 / 16 ≤ (c : ℚ) + (f : ℚ) / 16) := by
  have hc' : (c : ℚ) ≤ C := by exact_mod_cast hc
  have hf' : (f : ℚ) ≤ F := by exact_mod_cast hf
  refine ⟨by positivity, by linarith, ?_⟩
  have hsum : (c : ℚ) + (f : ℚ) / 16 = ((16 * c + f : Nat) : ℚ) / 16 := by push_cast; ring
  rw [hsum]
  obtain h0 | hpos := Nat.eq_zero_or_pos (16 * c + f)
  · exact .inl (by rw [h0]; simp)
  · have hone : (1 : ℚ) ≤ (16 * c + f : Nat) := by exact_mod_cast hpos
    exact .inr (by linarith)

theorem interval_bounds {t : Nat} (ht : t ≤ 65535) :
    0 ≤ F64.rn ((t : ℚ) / 10000000) ∧ F64.rn ((t : ℚ) / 10000000) ≤ F64.rn 0.0065535 ∧
      (F64.rn ((t : ℚ) / 10000000) = 0 ∨ F64.rn (1 / 10000000) ≤ F64.rn ((t : ℚ) / 10000000)) := by
  have hmax : (t : ℚ) ≤ 65535 := by exact_mod_cast ht
  refine ⟨F64.rn_zero.symm.trans_le (F64.rn_mono (by positivity)), F64.rn_mono (by norm_num; linarith), ?_⟩
  obtain rfl | hpos := Nat.eq_zero_or_pos t
  · simp
  · have hone : (1 : ℚ) ≤ t := by exact_mod_cast hpos
    exact .inr (F64.rn_mono (by linarith))

/-- More ticks never give a higher frequency. -/
theorem frequency_antitone {a b : Nat} (h0 : 0 < a) (hab : a ≤ b) (hb : b < 2 ^ 16) :
    F64.rn (1 / F64.rn ((b : ℚ) / 10000000)) ≤ F64.rn (1 / F64.rn ((a : ℚ) / 10000000)) := by
  have hpos : 0 < F64.rn ((a : ℚ) / 10000000) :=
    (zpow_pos two_pos _).trans_le (rn_interval_bounds h0 (hab.trans_lt hb)).1
  have hab' : (a : ℚ) ≤ b := by exact_mod_cast hab
  exact F64.rn_mono (one_div_le_one_div_of_le hpos (F64.rn_mono (by linarith)))

/-- The frequency of ticks whose pattern the datapath also gives to a quotient. -/
theorem frequency_eq_rn {t p d : Nat} (h : reciprocalOf (intervalSeconds t) = F64.roundQuot false p d) (h0 : 0 < t)
    (ht : t < 2 ^ 16) (hp : p ≤ 2 ^ 128) (hd : 0 < d) (hd' : d ≤ 2 ^ 128) :
    F64.rn (1 / F64.rn ((t : ℚ) / 10000000)) = F64.rn ((p : ℚ) / d) :=
  (F64.rn_eq_of_pattern h.symm (value_frequency h0 ht) hp hd hd').symm

theorem frequency_bounds {t : Nat} (h0 : 0 < t) (ht : t ≤ 65535) :
    F64.rn 152.59021896696422 ≤ F64.rn (1 / F64.rn ((t : ℚ) / 10000000)) ∧
      F64.rn (1 / F64.rn ((t : ℚ) / 10000000)) ≤ 10000000 := by
  have hmin : F64.rn (1 / F64.rn ((65535 : Nat) / 10000000)) = F64.rn 152.59021896696422 := by
    rw [frequency_eq_rn (p := 15259021896696422) (d := 10 ^ 14) (by decide) (by decide) (by decide) (by decide)
      (by decide) (by decide)]
    norm_num
  have hmax : F64.rn (1 / F64.rn ((1 : Nat) / 10000000)) = 10000000 := by
    rw [frequency_eq_rn (p := 10000000) (d := 1) (by decide) (by decide) (by decide) (by decide) (by decide)
      (by decide)]
    refine (F64.rn_of_representable ⟨10000000, 0, ?_, ?_⟩).trans ?_ <;> norm_num
  exact ⟨hmin.symm.trans_le (frequency_antitone h0 ht (by decide)),
    (frequency_antitone one_pos h0 (by omega)).trans_eq hmax⟩

end

/-- Settles O50: `rn` is monotone, so each bound is the output at an end of the raw range. -/
theorem outputRanges : Obligations.OutputRanges := by
  intro x
  refine ⟨fun r hr => ?_, fun r hr => ?_, ?_, ?_, ?_, fun hticks => ?_⟩
  · obtain ⟨a, ha⟩ := outputOf_acc (x := x) hr
    obtain ⟨hmin, hmax⟩ := acc_bounds (BitVec.le_toInt a) (Int.le_of_lt_add_one (BitVec.toInt_lt))
    exact ⟨_, ha ▸ value_scaleAcc (natAbs_toInt_le a), hmin, hmax, acc_eq_zero_or_le_abs _⟩
  · obtain ⟨a, ha⟩ := outputOf_gyr (x := x) hr
    exact ⟨_, ha ▸ value_scaleGyr (natAbs_toInt_le a),
      gyr_bounds (BitVec.le_toInt a) (Int.le_of_lt_add_one (BitVec.toInt_lt))⟩
  · obtain ⟨hmin, hmax, hmagnitude⟩ := fixedPoint_bounds (C := 65535) (F := 255)
      (Nat.le_of_lt_succ x.altc.bits.isLt) (Nat.le_of_lt_succ x.altf.bits.isLt)
    exact ⟨_, value_fixedPoint (BitVec.isLt _) (BitVec.isLt _), hmin, hmax.trans_eq (by norm_num), hmagnitude⟩
  · obtain ⟨hmin, hmax, hmagnitude⟩ := fixedPoint_bounds (C := 255) (F := 255)
      (Nat.le_of_lt_succ x.tmpc.bits.isLt) (Nat.le_of_lt_succ x.tmpf.bits.isLt)
    exact ⟨_, value_fixedPoint (x.tmpc.bits.isLt.trans (by decide)) (BitVec.isLt _), hmin,
      hmax.trans_eq (by norm_num), hmagnitude⟩
  · exact ⟨_, value_intervalSeconds (BitVec.isLt _), interval_bounds (Nat.le_of_lt_succ x.ivt.bits.isLt)⟩
  · have hn : x.ivt.bits.toNat ≠ 0 := toNat_ne_zero hticks
    have hpos := Nat.pos_of_ne_zero hn
    exact ⟨_, (congrArg F64.value (if_neg hn)).trans (value_frequency hpos (BitVec.isLt _)),
      frequency_bounds hpos (Nat.le_of_lt_succ x.ivt.bits.isLt)⟩

/-! ### Signs and finiteness (R161, R163) -/

section
variable {x : RawFile} {r : OutReg}

/-- The three kinds of output. -/
theorem outReg_cases (r : OutReg) : (r = .accx ∨ r = .accy ∨ r = .accz) ∨ (r = .gyrx ∨ r = .gyry ∨ r = .gyrz) ∨
    (r = .alt ∨ r = .tmp ∨ r = .ivs ∨ r = .frq) := by
  cases r <;> decide

/-- Outside SCACC and SCGYR an output is `+INF` on zero ticks or a value that is not negative. -/
theorem outputOf_nonneg (hr : r = .alt ∨ r = .tmp ∨ r = .ivs ∨ r = .frq) (hticks : r = .frq → x.ivt.bits ≠ 0) :
    ∃ v, F64.value (outputOf x r) = some v ∧ 0 ≤ v := by
  obtain ⟨-, -, ⟨a, ha, ha0, -⟩, ⟨b, hb, hb0, -⟩, ⟨c, hc, hc0, -⟩, hfrq⟩ := outputRanges x
  obtain rfl | rfl | rfl | rfl := hr
  · exact ⟨a, ha, ha0⟩
  · exact ⟨b, hb, hb0⟩
  · exact ⟨c, hc, hc0⟩
  · obtain ⟨v, hv, hmin, -⟩ := hfrq (hticks rfl)
    exact ⟨v, hv, (F64.rn_pos (by norm_num)).le.trans hmin⟩

theorem outputOf_finite (hticks : r = .frq → x.ivt.bits ≠ 0) : ∃ v, F64.value (outputOf x r) = some v := by
  obtain ⟨hacc, hgyr, -⟩ := outputRanges x
  obtain hr | hr | hr := outReg_cases r
  · exact (hacc r hr).imp fun _ h => h.1
  · exact (hgyr r hr).imp fun _ h => h.1
  · exact (outputOf_nonneg hr hticks).imp fun _ h => h.1

theorem outputOf_zeroTicks (hticks : x.ivt.bits = 0) : outputOf x .frq = F64.posInf := by
  simp [outputOf, hticks]

/-- Scaling by a positive factor keeps the sign and is odd. -/
theorem value_scaleSigned_sign {n : ℤ} {p d : Nat} (hn : n.natAbs ≤ 32768) (hp : 0 < p ∧ p ≤ 2 ^ 64)
    (hd : 0 < d ∧ d ≤ 2 ^ 128) :
    ∃ v, F64.value (scaleSigned n p d) = some v ∧ (0 < v ↔ 0 < n) ∧ (v < 0 ↔ n < 0)
      ∧ F64.value (scaleSigned (-n) p d) = some (-v) := by
  have hproduct : n.natAbs * p ≤ 2 ^ 128 := (Nat.mul_le_mul hn hp.2).trans (by norm_num)
  have hfactor : 0 < (p : ℚ) / d := div_pos (Nat.cast_pos.2 hp.1) (Nat.cast_pos.2 hd.1)
  refine ⟨_, value_scaleSigned hproduct hd.1 hd.2, ?_, ?_, ?_⟩
  · rw [F64.rn_pos_iff, mul_pos_iff_of_pos_right hfactor, Int.cast_pos]
  · rw [F64.rn_lt_zero_iff, Rat.mul_neg_iff_of_pos_right hfactor, Int.cast_lt_zero]
  · rw [value_scaleSigned (by rwa [Int.natAbs_neg]) hd.1 hd.2, Int.cast_neg, neg_mul, F64.rn_neg]

end

/-- Settles O49: what has a finite value is neither infinite nor outside F64. -/
theorem outputsAreFiniteOrTheOneInfinity : Obligations.OutputsAreFiniteOrTheOneInfinity := by
  intro x r
  by_cases hzero : r = .frq ∧ x.ivt.bits = 0
  · obtain ⟨rfl, hticks⟩ := hzero
    rw [outputOf_zeroTicks hticks]
    exact ⟨by decide, iff_of_true rfl ⟨rfl, hticks⟩⟩
  · obtain ⟨v, hv⟩ := outputOf_finite fun hr hticks => hzero ⟨hr, hticks⟩
    refine ⟨F64.isElement_of_value hv, iff_of_false (fun hinf => ?_) hzero⟩
    rw [hinf, F64.value_posInf] at hv
    cases hv

/-- Settles O51: `rn` keeps signs and is odd, and a value that is not negative has sign bit 0. -/
theorem signsOfTheOutputs : Obligations.SignsOfTheOutputs := by
  refine ⟨fun n p d hlow hhigh hscale => ?_, fun x r hr => ?_⟩
  · have hn : n.natAbs ≤ 32768 := by omega
    obtain ⟨hp, hd⟩ : (0 < p ∧ p ≤ 2 ^ 64) ∧ 0 < d ∧ d ≤ 2 ^ 128 := by
      obtain ⟨rfl, rfl⟩ | ⟨rfl, rfl⟩ := hscale <;> decide
    obtain ⟨v, hv, hpos, hneg, hodd⟩ := value_scaleSigned_sign hn hp hd
    exact ⟨v, hv, hpos, hneg, fun _ => hodd⟩
  · by_cases hzero : r = .frq ∧ x.ivt.bits = 0
    · obtain ⟨rfl, hticks⟩ := hzero
      rw [outputOf_zeroTicks hticks]
      decide
    · obtain ⟨v, hv, h0⟩ := outputOf_nonneg hr fun hfrq hticks => hzero ⟨hfrq, hticks⟩
      exact F64.signBit_of_value_nonneg hv h0

/-- Settles O52: the rounding error of SCACC is at most `2^15 * 2^-53` raw units, and SCGYR has none. -/
theorem rawValueIsRecoverable : Obligations.RawValueIsRecoverable := by
  intro n hlow hhigh
  have hn : n.natAbs ≤ 32768 := by omega
  refine ⟨⟨_, value_scaleAcc hn, ?_⟩, _, value_scaleGyr hn, by norm_num; ring⟩
  set C : ℚ := 5522539043063071 / 2 ^ 59 with hC
  have hCpos : 0 < C := by norm_num [hC]
  have habs : |(n : ℚ)| ≤ 32768 := by exact_mod_cast abs_le.2 ⟨hlow, by omega⟩
  calc |F64.rn (n * C) / C - n| = |F64.rn (n * C) - n * C| / C := by
        rw [← abs_of_pos hCpos, ← abs_div, abs_of_pos hCpos, sub_div, mul_div_cancel_right₀ _ hCpos.ne']
    _ ≤ |n * C| / 2 ^ 53 / C := div_le_div_of_nonneg_right (F64.abs_rn_sub_le _) hCpos.le
    _ = |(n : ℚ)| / 2 ^ 53 := by rw [abs_mul, abs_of_pos hCpos]; field_simp
    _ < 2 ^ (-36 : ℤ) := by norm_num; linarith

end Sys2Proof.Machine
end

section
/-! Reset (70_reset_and_hazards.md R200, R201): it can be applied between any two steps, during a cycle as in Idle. -/

namespace Sys2Proof.Machine

/-- A reset that is due is applied, whatever else the state holds. -/
theorem step_reset {s : State} (h : s.turns.head? = some .reset) : step s = .next s.turnTaken.resetBlock := by
  apply step_of_due_outcome
  simp only [State.due, h]

/-- Settles O2: the block's fields are those of `State.reset`, the streams and the host's record those of the state
before. -/
theorem resetAppliesInEveryState : Obligations.ResetAppliesInEveryState := by
  intro s hturn
  have hstreams : s.SameStreams s.turnTaken.resetBlock := ⟨rfl, rfl, rfl⟩
  exact ⟨_, step_reset hturn, rfl, rfl, rfl, rfl, rfl, rfl, rfl, RawFile.valid_reset, OutFile.valid_reset, hstreams, rfl,
    rfl⟩

end Sys2Proof.Machine
end
